-- ==== Sys2Proof/Word.lean ====
section
/-!
DEFINITION. The word types of the machine: bytes, 16-bit words and register numbers (00_scope.md R4, R6, R7).
Every value of this hardware is unsigned (R7).
-/

namespace Sys2Proof

/-- One byte: a V register, a memory cell, a timer (R21, R30, R31, R50). -/
abbrev Byte := BitVec 8

/-- One 16-bit word: an instruction, PC, I or a stack slot (R23, R24, R29, R70). -/
abbrev Word := BitVec 16

/-- A register number 0..15, naming V0..VF; no 4-bit value is out of range (R21, R72). -/
abbrev Reg := Fin 16

/-- VF, register 15, which doubles as the flag register (R22). -/
abbrev VF : Reg := 15

end Sys2Proof
end

