-- ==== Sys2Proof/Syntax.lean ====
section
/-!
DEFINITION. The instruction set: one constructor per row of spec/opcode_table.json (30_encoding.md R80, R84).
A constructor has the row's fields and nothing else: an ignored bit (R83) does not change what an instruction does,
so it is no part of the instruction. The name in brackets is the row's mnemonic.
-/

namespace Sys2Proof

inductive Instr where
  /-- 00E0 [CLS], R190. -/
  | cls
  /-- 00EE [RET], R120. -/
  | ret
  /-- 1NNN [JP], R121. -/
  | jp (nnn : BitVec 12)
  /-- 2NNN [CALL], R122. -/
  | call (nnn : BitVec 12)
  /-- 3XNN [SE_IMM], R124. -/
  | seImm (x : Reg) (nn : Byte)
  /-- 4XNN [SNE_IMM], R125. -/
  | sneImm (x : Reg) (nn : Byte)
  /-- 5XY0 [SE_REG], R126. -/
  | seReg (x y : Reg)
  /-- 6XNN [LD_IMM], R140. -/
  | ldImm (x : Reg) (nn : Byte)
  /-- 7XNN [ADD_IMM], R141. -/
  | addImm (x : Reg) (nn : Byte)
  /-- 8XY0 [LD_REG], R142. -/
  | ldReg (x y : Reg)
  /-- 8XY1 [OR], R143. -/
  | orReg (x y : Reg)
  /-- 8XY2 [AND], R144. -/
  | andReg (x y : Reg)
  /-- 8XY3 [XOR], R145. -/
  | xorReg (x y : Reg)
  /-- 8XY4 [ADD_REG], R146. -/
  | addReg (x y : Reg)
  /-- 8XY5 [SUB], R147. -/
  | sub (x y : Reg)
  /-- 8XY6 [SHR], R148; the y field is an ignored field. -/
  | shr (x : Reg)
  /-- 8XY7 [SUBN], R149. -/
  | subn (x y : Reg)
  /-- 8XYE [SHL], R150; the y field is an ignored field. -/
  | shl (x : Reg)
  /-- 9XY0 [SNE_REG], R127. -/
  | sneReg (x y : Reg)
  /-- ANNN [LD_I], R170. -/
  | ldI (nnn : BitVec 12)
  /-- BNNN [JP_V0], R123. -/
  | jpV0 (nnn : BitVec 12)
  /-- CXNN [RND], R151. -/
  | rnd (x : Reg) (nn : Byte)
  /-- DXYN [DRW], R191. -/
  | drw (x y : Reg) (n : BitVec 4)
  /-- EX9E [SKP], R128. -/
  | skp (x : Reg)
  /-- EXA1 [SKNP], R129. -/
  | sknp (x : Reg)
  /-- FX07 [LD_VX_DT], R210. -/
  | ldVxDt (x : Reg)
  /-- FX0A [LD_VX_K], R213. -/
  | ldVxK (x : Reg)
  /-- FX15 [LD_DT_VX], R211. -/
  | ldDtVx (x : Reg)
  /-- FX18 [LD_ST_VX], R212. -/
  | ldStVx (x : Reg)
  /-- FX1E [ADD_I], R171. -/
  | addI (x : Reg)
  /-- FX29 [LD_F], R172. -/
  | ldF (x : Reg)
  /-- FX33 [LD_B], R173. -/
  | ldB (x : Reg)
  /-- FX55 [ST_REGS], R174. -/
  | stRegs (x : Reg)
  /-- FX65 [LD_REGS], R175. -/
  | ldRegs (x : Reg)
  deriving DecidableEq, Repr

end Sys2Proof
end

