-- ==== Sys2Proof/Decode.lean ====
section
/-!
DEFINITION. The decoder and the encoder (30_encoding.md).
`decode` is the nested dispatch of R74 to R80; `decodeBytes` reads a byte stream, high byte first (R55, R70).
`encode` writes the canonical word, with every ignored bit 0 (R79, R85).
-/

namespace Sys2Proof

/-- A word that is no instruction; the payload is the whole word (R81, R231). -/
structure UnknownOpcode where
  op : Word
  deriving DecidableEq, Repr

/-- Why a byte stream holds no instruction. -/
inductive DecodeError where
  /-- Its first two bytes are no instruction (R81). -/
  | unknownOpcode (op : Word)
  /-- Fewer than two bytes are left (R70: a decoder always consumes 2 bytes). The machine's own fetch never gives this. -/
  | truncated
  deriving DecidableEq, Repr

/-- op[15:12], the primary opcode (R71). -/
def opTop (op : Word) : BitVec 4 := op.extractLsb' 12 4

/-- op[11:8], the register number x (R71, R72). -/
def opX (op : Word) : Reg := (op.extractLsb' 8 4).toFin

/-- op[7:4], the register number y (R71, R72). -/
def opY (op : Word) : Reg := (op.extractLsb' 4 4).toFin

/-- op[3:0], the 4-bit immediate n and the sub-opcode of the 8 family (R71). -/
def opN (op : Word) : BitVec 4 := op.extractLsb' 0 4

/-- op[7:0], the 8-bit immediate nn and the sub-opcode of the 0, E and F families (R71). -/
def opNN (op : Word) : Byte := op.extractLsb' 0 8

/-- op[11:0], the 12-bit address nnn (R71). -/
def opNNN (op : Word) : BitVec 12 := op.extractLsb' 0 12

/-- 0 family: the low byte selects, op[11:8] is ignored (R75). The selector is `opNN`, op[7:0], 8 bits wide. -/
def decode0 (op : Word) : Except UnknownOpcode Instr :=
  match (opNN op).toNat with
  | 0xE0 => .ok .cls
  | 0xEE => .ok .ret
  | _ => .error ⟨op⟩

/-- 8 family: the low nibble selects (R76). PRESUMED, log 22: the numbers 0 to 3, 6, 7 and E are the spec's general
knowledge (GK2). -/
def decode8 (op : Word) : Except UnknownOpcode Instr :=
  match (opN op).toNat with
  | 0x0 => .ok (.ldReg (opX op) (opY op))
  | 0x1 => .ok (.orReg (opX op) (opY op))
  | 0x2 => .ok (.andReg (opX op) (opY op))
  | 0x3 => .ok (.xorReg (opX op) (opY op))
  | 0x4 => .ok (.addReg (opX op) (opY op))
  | 0x5 => .ok (.sub (opX op) (opY op))
  | 0x6 => .ok (.shr (opX op))
  | 0x7 => .ok (.subn (opX op) (opY op))
  | 0xE => .ok (.shl (opX op))
  | _ => .error ⟨op⟩

/-- E family: the low byte selects (R77). -/
def decodeE (op : Word) : Except UnknownOpcode Instr :=
  match (opNN op).toNat with
  | 0x9E => .ok (.skp (opX op))
  | 0xA1 => .ok (.sknp (opX op))
  | _ => .error ⟨op⟩

/-- F family: the low byte selects (R78). PRESUMED, log 22: which of FX07, FX15, FX18 is which is the spec's general
knowledge (GK3). -/
def decodeF (op : Word) : Except UnknownOpcode Instr :=
  match (opNN op).toNat with
  | 0x07 => .ok (.ldVxDt (opX op))
  | 0x0A => .ok (.ldVxK (opX op))
  | 0x15 => .ok (.ldDtVx (opX op))
  | 0x18 => .ok (.ldStVx (opX op))
  | 0x1E => .ok (.addI (opX op))
  | 0x29 => .ok (.ldF (opX op))
  | 0x33 => .ok (.ldB (opX op))
  | 0x55 => .ok (.stRegs (opX op))
  | 0x65 => .ok (.ldRegs (opX op))
  | _ => .error ⟨op⟩

/-- The decoder: first the top nibble, then for the 0, 8, E and F families a second selection (R74). The low nibble of
5XY0 and 9XY0 is not examined (R79; DEDUCED, log 10). -/
def decode (op : Word) : Except UnknownOpcode Instr :=
  match (opTop op).toNat with
  | 0x0 => decode0 op
  | 0x1 => .ok (.jp (opNNN op))
  | 0x2 => .ok (.call (opNNN op))
  | 0x3 => .ok (.seImm (opX op) (opNN op))
  | 0x4 => .ok (.sneImm (opX op) (opNN op))
  | 0x5 => .ok (.seReg (opX op) (opY op))
  | 0x6 => .ok (.ldImm (opX op) (opNN op))
  | 0x7 => .ok (.addImm (opX op) (opNN op))
  | 0x8 => decode8 op
  | 0x9 => .ok (.sneReg (opX op) (opY op))
  | 0xA => .ok (.ldI (opNNN op))
  | 0xB => .ok (.jpV0 (opNNN op))
  | 0xC => .ok (.rnd (opX op) (opNN op))
  | 0xD => .ok (.drw (opX op) (opY op) (opN op))
  | 0xE => decodeE op
  | _ => decodeF op      -- 0xF, the one value left

/-- A big-endian word: the byte at the lower address is op[15:8] (R55). -/
def wordOfBytes (hi lo : Byte) : Word := hi ++ lo

/-- The two bytes of a word, in memory order (R55, R70). -/
def bytesOfWord (op : Word) : Byte × Byte := (op.extractLsb' 8 8, op.extractLsb' 0 8)

/-- Decode the front of a byte stream; the rest of the stream is returned (R70). -/
def decodeBytes : List Byte → Except DecodeError (Instr × List Byte)
  | hi :: lo :: rest =>
    match decode (wordOfBytes hi lo) with
    | .ok i => .ok (i, rest)
    | .error e => .error (.unknownOpcode e.op)
  | _ => .error .truncated

/-- Form NNN: a top nibble and an address. -/
def packNNN (top : BitVec 4) (nnn : BitVec 12) : Word := top ++ nnn

/-- Form XNN (and X with a fixed low byte): a top nibble, a register and a low byte. -/
def packXNN (top : BitVec 4) (x : Reg) (nn : Byte) : Word := (top ++ BitVec.ofFin (w := 4) x) ++ nn

/-- Form XYN (and XY with a fixed low nibble): a top nibble, two registers and a low nibble. -/
def packXYN (top : BitVec 4) (x y : Reg) (n : BitVec 4) : Word :=
  ((top ++ BitVec.ofFin (w := 4) x) ++ BitVec.ofFin (w := 4) y) ++ n

/-- The encoder, from the "encoding" strings of spec/opcode_table.json with every ignored bit 0 (R84, R85). -/
def encode : Instr → Word
  | .cls => 0x00E0
  | .ret => 0x00EE
  | .jp nnn => packNNN 0x1 nnn
  | .call nnn => packNNN 0x2 nnn
  | .seImm x nn => packXNN 0x3 x nn
  | .sneImm x nn => packXNN 0x4 x nn
  | .seReg x y => packXYN 0x5 x y 0x0
  | .ldImm x nn => packXNN 0x6 x nn
  | .addImm x nn => packXNN 0x7 x nn
  | .ldReg x y => packXYN 0x8 x y 0x0
  | .orReg x y => packXYN 0x8 x y 0x1
  | .andReg x y => packXYN 0x8 x y 0x2
  | .xorReg x y => packXYN 0x8 x y 0x3
  | .addReg x y => packXYN 0x8 x y 0x4
  | .sub x y => packXYN 0x8 x y 0x5
  | .shr x => packXYN 0x8 x 0 0x6
  | .subn x y => packXYN 0x8 x y 0x7
  | .shl x => packXYN 0x8 x 0 0xE
  | .sneReg x y => packXYN 0x9 x y 0x0
  | .ldI nnn => packNNN 0xA nnn
  | .jpV0 nnn => packNNN 0xB nnn
  | .rnd x nn => packXNN 0xC x nn
  | .drw x y n => packXYN 0xD x y n
  | .skp x => packXNN 0xE x 0x9E
  | .sknp x => packXNN 0xE x 0xA1
  | .ldVxDt x => packXNN 0xF x 0x07
  | .ldVxK x => packXNN 0xF x 0x0A
  | .ldDtVx x => packXNN 0xF x 0x15
  | .ldStVx x => packXNN 0xF x 0x18
  | .addI x => packXNN 0xF x 0x1E
  | .ldF x => packXNN 0xF x 0x29
  | .ldB x => packXNN 0xF x 0x33
  | .stRegs x => packXNN 0xF x 0x55
  | .ldRegs x => packXNN 0xF x 0x65

/-- The encoded instruction as it lies in memory, high byte first (R70). -/
def encodeBytes (i : Instr) : List Byte :=
  [(bytesOfWord (encode i)).1, (bytesOfWord (encode i)).2]

/-- The bits of the word that the instruction ignores (R83). -/
def ignoredMask : Instr → Word
  | .cls => 0x0F00
  | .ret => 0x0F00
  | .seReg _ _ => 0x000F
  | .sneReg _ _ => 0x000F
  | .shr _ => 0x00F0
  | .shl _ => 0x00F0
  | .jp _ => 0
  | .call _ => 0
  | .seImm _ _ => 0
  | .sneImm _ _ => 0
  | .ldImm _ _ => 0
  | .addImm _ _ => 0
  | .ldReg _ _ => 0
  | .orReg _ _ => 0
  | .andReg _ _ => 0
  | .xorReg _ _ => 0
  | .addReg _ _ => 0
  | .sub _ _ => 0
  | .subn _ _ => 0
  | .ldI _ => 0
  | .jpV0 _ => 0
  | .rnd _ _ => 0
  | .drw _ _ _ => 0
  | .skp _ => 0
  | .sknp _ => 0
  | .ldVxDt _ => 0
  | .ldVxK _ => 0
  | .ldDtVx _ => 0
  | .ldStVx _ => 0
  | .addI _ => 0
  | .ldF _ => 0
  | .ldB _ => 0
  | .stRegs _ => 0
  | .ldRegs _ => 0

/-- An opcode-table row's word `w` of `nbits` bits, laid out as the hardware stores it: high byte first (R55). -/
def tableBytes (nbits w : Nat) : Byte × Byte := bytesOfWord (BitVec.ofNat 16 (w % 2 ^ nbits))

/-- The instruction this decoder reads from an opcode-table row's word. -/
def decodeTableWord (nbits w : Nat) : Option Instr :=
  match decodeBytes [(tableBytes nbits w).1, (tableBytes nbits w).2] with
  | .ok (i, _) => some i
  | .error _ => none

end Sys2Proof
end

