-- ==== Sys2Proof/Config.lean ====
section
/-!
DEFINITION. What the host configures once, and the free values (00_scope.md R5, R11).
The configuration is fixed for the life of a state (R245); log 5 says why State carries it.
-/

namespace Sys2Proof

/-- FX0A_LAST_KEY, the highest key that FX0A scans: "14 or 15" (R5, D10). -/
inductive LastKey where
  | key14
  | key15
  deriving DecidableEq, Repr

/-- The key number a `LastKey` stands for. -/
def LastKey.toNat : LastKey → Nat
  | .key14 => 14
  | .key15 => 15

/-- The parameters of R5. CLOCK_HZ is held as its excess over 60, so that no value of this type breaks
CLOCK_HZ >= 60: a lower rate is refused before a configuration exists (R245, U8). -/
structure Config where
  /-- CLOCK_HZ - 60. -/
  clockAbove60 : Nat
  /-- FX0A_LAST_KEY. -/
  lastKey      : LastKey
  /-- FONTSET, the 80 bytes `initialize()` copies to 0x50..0x9F (R40). -/
  fontset      : Vector Byte 80
  deriving DecidableEq, Repr

/-- CLOCK_HZ (R5). -/
def Config.clockHz (c : Config) : Nat := c.clockAbove60 + 60

/-- DIV = CLOCK_HZ div 60, the number of cycles per timer decrement (R245). -/
def Config.div (c : Config) : Nat := c.clockHz / 60

/-- FREE VALUE (log 1): the host's CLOCK_HZ less 60; the spec leaves it OPEN (D13). -/
opaque Config.hostClockAbove60 : Nat

/-- FREE VALUE (log 2): the host's FONTSET; the spec leaves its bytes OPEN (D11). -/
opaque Config.hostFontset : Vector Byte 80

/-- FREE VALUE (log 4): the random byte of the k-th draw, under no law (R11, D12). -/
opaque Config.freeByte : Nat → Byte

/-- The configuration at reset: CLOCK_HZ and FONTSET are whatever the host supplies; FX0A_LAST_KEY is the spec's
14 (R5, D10; log 3). -/
def Config.supplied : Config where
  clockAbove60 := Config.hostClockAbove60
  lastKey      := .key14
  fontset      := Config.hostFontset

/-- The recommended FONTSET of R40 (GK1). Nothing in the machine uses it; a claim or a test that needs glyph pixels
names it (D11). -/
def Config.recommendedFontset : Vector Byte 80 :=
  #v[0xF0, 0x90, 0x90, 0x90, 0xF0,  0x20, 0x60, 0x20, 0x20, 0x70,
     0xF0, 0x10, 0xF0, 0x80, 0xF0,  0xF0, 0x10, 0xF0, 0x10, 0xF0,
     0x90, 0x90, 0xF0, 0x10, 0x10,  0xF0, 0x80, 0xF0, 0x10, 0xF0,
     0xF0, 0x80, 0xF0, 0x90, 0xF0,  0xF0, 0x10, 0x20, 0x40, 0x40,
     0xF0, 0x90, 0xF0, 0x90, 0xF0,  0xF0, 0x90, 0xF0, 0x10, 0xF0,
     0xF0, 0x90, 0xF0, 0x90, 0x90,  0xE0, 0x90, 0xE0, 0x90, 0xE0,
     0xF0, 0x80, 0x80, 0x80, 0xF0,  0xE0, 0x90, 0x90, 0x90, 0xE0,
     0xF0, 0x80, 0xF0, 0x80, 0xF0,  0xF0, 0x80, 0xF0, 0x80, 0x80]

end Sys2Proof
end

