-- ==== Sys2Proof/Machine/State.lean ====
section
/-!
DEFINITION. The machine's state (10_state.md R20), its faults and its refusal, and the state after reset.
State is plain data. Its fields are exactly the components of R20, and two fields of the model's own: `cfg` (log 5)
and `draws` (log 4).
-/

namespace Sys2Proof.Machine

/-- MEM or VRAM: the cells that hold something other than 0, addresses strictly rising. Every unlisted cell holds 0,
which is what `new()` gives (R41; log 6). -/
abbrev Memory := List Host.Cell

/-- How an access reaches MEM (R57). -/
inductive AccessKind where
  | fetch
  | read
  | write
  deriving DecidableEq, Repr

/-- The four errors a cycle can end in (60_exceptions.md R230). Each leaves the state as it was before the cycle
(40_cycle.md R106). -/
inductive Fault where
  /-- Raised by decode on an illegal word; the payload is the whole word (R231). Safe: it is the spec's own error. -/
  | unknownOpcode (op : Word)
  /-- Raised by 2NNN with SP = 16 (R232). Safe: it is the spec's own error. -/
  | stackOverflow
  /-- Raised by 00EE with SP = 0 (R233). Safe: it is the spec's own error. -/
  | stackUnderflow
  /-- Raised by a fetch, DXYN, FX65 (read), FX33 or FX55 (write) that would touch an address of 4096 or more; `addr` is
  the first such address (R234). Safe: the spec adds this error where its source names none (C2, D4; log 12). -/
  | memoryOutOfBounds (kind : AccessKind) (addr : Nat)
  deriving DecidableEq, Repr

/-- What the model declines to give a meaning. -/
inductive Refusal where
  /-- Raised by an arm of `exec` whose instruction has no meaning yet; no arm is left that raises it. Safe. -/
  | notModelled (mnemonic : String)
  deriving DecidableEq, Repr

/-- The interpreter state (R20). -/
structure State where
  /-- The host's configuration: not the spec's state (R20), never changed by a step (log 5). -/
  cfg         : Config
  /-- MEM, addresses 0..4095 (R38, R50). -/
  mem         : Memory
  /-- V0..VF (R21, R22). -/
  v           : Vector Byte 16
  /-- I, the index register (R23). -/
  i           : Word
  /-- PC, the address of the instruction being executed (R24). -/
  pc          : Word
  /-- SP, the number of occupied stack slots, 0..16 (R28; log 23). -/
  sp          : Fin 17
  /-- STACK[0..15] (R29). -/
  stack       : Vector Word 16
  /-- DT, the delay timer (R30). -/
  dt          : Byte
  /-- ST, the sound timer (R31). -/
  st          : Byte
  /-- DIVCNT, the timer divider, 0..DIV-1 (R32). -/
  divcnt      : Nat
  /-- KEYS[0..15], true when pressed (R33). -/
  keys        : Vector Bool 16
  /-- VRAM[0..2047], cell (x, y) at y * 64 + x, each 0x00 or 0xFF (R34, R35). -/
  vram        : Memory
  /-- DRAW_FLAG (R36). -/
  drawFlag    : Bool
  /-- SOUND_EVENTS (R37). -/
  soundEvents : Nat
  /-- The model's own: how many random bytes have been drawn (R11; log 4). -/
  draws       : Nat
  deriving DecidableEq, Repr

/-- The zero state of `new()` under a configuration (R41, R270). -/
def State.zero (cfg : Config) : State where
  cfg         := cfg
  mem         := []
  v           := Vector.replicate 16 0
  i           := 0
  pc          := 0
  sp          := 0
  stack       := Vector.replicate 16 0
  dt          := 0
  st          := 0
  divcnt      := 0
  keys        := Vector.replicate 16 false
  vram        := []
  drawFlag    := false
  soundEvents := 0
  draws       := 0

/-- The machine right after reset, which is `new()`: "There is no other reset" (R270). PC is 0 until `initialize()`
(R24; log 7). -/
def State.reset : State := State.zero Config.supplied

end Sys2Proof.Machine
end

