-- ==== Sys2Proof/Machine/Ops.lean ====
section
/-!
DEFINITION. The named operations over memory, the registers and the stack, raising an error, and fetching an
instruction. Every read and write of the state goes through these.
-/

namespace Sys2Proof.Machine

/-! ### Memory cells (20_memory.md; VRAM uses the same cells, R35) -/

/-- The byte at an address; a cell that nothing lists holds 0 (R41, R61). -/
def Memory.read : Memory → Nat → Byte
  | [], _ => 0
  | (b, w) :: m, a => if a = b then w else Memory.read m a

/-- Put a cell in front, unless it holds what an unlisted cell holds. -/
def Memory.consCell (a : Nat) (v : Byte) (m : Memory) : Memory :=
  if v = 0 then m else (a, v) :: m

/-- Store one byte; "a write changes only the addressed byte" (R61). Keeps the canonical form. -/
def Memory.write : Memory → Nat → Byte → Memory
  | [], a, v => Memory.consCell a v []
  | (b, w) :: m, a, v =>
    if a < b then Memory.consCell a v ((b, w) :: m)
    else if a = b then Memory.consCell a v m
    else (b, w) :: Memory.write m a v

/-- Cells from `lo` up, strictly rising, below `limit`, none holding 0. -/
def Memory.wfFrom (limit : Nat) : Nat → Memory → Bool
  | _, [] => true
  | lo, (a, v) :: m =>
    decide (lo ≤ a) && decide (a < limit) && decide (v ≠ 0) && Memory.wfFrom limit (a + 1) m

/-- MEM is in its canonical form (R50: addresses 0..4095). -/
def Memory.wf (m : Memory) : Bool := Memory.wfFrom 4096 0 m

/-- VRAM is in its canonical form (R34: cells 0..2047) and every listed cell is 0xFF, so every cell is 0x00 or 0xFF. -/
def Memory.vramWf (m : Memory) : Bool :=
  Memory.wfFrom 2048 0 m && m.all (fun c => decide (c.2 = 0xFF))

/-- `n` consecutive bytes in ascending order; addresses are exact naturals (R58). -/
def Memory.readBlock (m : Memory) (base n : Nat) : List Byte :=
  (List.range n).map (fun k => Memory.read m (base + k))

/-- Store consecutive bytes in ascending order (R62). -/
def Memory.writeBlock : Memory → Nat → List Byte → Memory
  | m, _, [] => m
  | m, base, b :: bs => Memory.writeBlock (Memory.write m base b) (base + 1) bs

/-! ### Registers -/

/-- V[x] (R8). -/
def State.getV (s : State) (x : Reg) : Byte := s.v[x.val]

/-- V[x] <- b (R8). -/
def State.setV (s : State) (x : Reg) (b : Byte) : State := { s with v := s.v.set x.val b }

/-- The data result first and VF last, so that with x = F the flag is what remains (R22, R107). -/
def State.setResultFlag (s : State) (x : Reg) (result flag : Byte) : State :=
  (s.setV x result).setV VF flag

/-- V[0..last] <- f 0 .. f last; the other registers stay (R175). -/
def State.setVUpTo (s : State) (last : Reg) (f : Nat → Byte) : State :=
  { s with v := Vector.ofFn (fun k : Fin 16 => if k ≤ last then f k.val else s.v[k.val]) }

/-- I <- w (R8). -/
def State.setI (s : State) (w : Word) : State := { s with i := w }

/-- PC <- w (R104). -/
def State.setPc (s : State) (w : Word) : State := { s with pc := w }

/-- npc = (PC + 2) mod 65536, the default advance (R25, R108). -/
def State.advance (s : State) : State := s.setPc (s.pc + 2)

/-- npc = (PC + 4) mod 65536 when the skip is taken, else (PC + 2) mod 65536 (R25, R108, R130). -/
def State.skipIf (s : State) (taken : Bool) : State :=
  s.setPc (if taken then s.pc + 4 else s.pc + 2)

def State.setMem (s : State) (m : Memory) : State := { s with mem := m }

def State.setVram (s : State) (m : Memory) : State := { s with vram := m }

def State.setDrawFlag (s : State) (b : Bool) : State := { s with drawFlag := b }

def State.setDt (s : State) (b : Byte) : State := { s with dt := b }

def State.setSt (s : State) (b : Byte) : State := { s with st := b }

def State.setKeys (s : State) (k : Vector Bool 16) : State := { s with keys := k }

def State.setSoundEvents (s : State) (n : Nat) : State := { s with soundEvents := n }

/-- The random byte of this CXNN (R11): a free value (log 4). -/
def State.rand8 (s : State) : Byte := Config.freeByte s.draws

/-- A byte has been drawn; the next draw is a fresh one (R11; log 4). -/
def State.countDraw (s : State) : State := { s with draws := s.draws + 1 }

/-! ### The return stack (R28, R29) -/

/-- STACK[SP] <- w, then SP <- SP + 1; legal only when SP < 16. -/
def State.push (s : State) (w : Word) : Option State :=
  if h : s.sp.val < 16 then
    some { s with stack := s.stack.set s.sp.val w, sp := ⟨s.sp.val + 1, by omega⟩ }
  else none

/-- SP <- SP - 1, then read STACK[SP]; legal only when SP > 0. The slot keeps its value (R29). -/
def State.pop (s : State) : Option (Word × State) :=
  if h : 0 < s.sp.val then
    some (s.stack[s.sp.val - 1], { s with sp := ⟨s.sp.val - 1, by omega⟩ })
  else none

/-! ### Errors (60_exceptions.md) -/

/-- Raising an error ends the cycle with it. It "saves no state, changes no mode, pushes nothing on the stack and
transfers control to no vector" (R239), so there is nothing to write and nothing to return from (R240). The outcome
carries the error alone; the state after it is the state before the cycle (R106; log 8). -/
def raise (e : Fault) : Host.Outcome State Fault Refusal := .fault e

/-- CheckRange (43_index_memory.md): the error of an access to `cnt` bytes from `base`, for cnt >= 1. The first
out-of-range address is max(base, 4096) (R57, R234). Addresses are naturals, never wrapped (R58). -/
def rangeFault (kind : AccessKind) (base cnt : Nat) : Option Fault :=
  if 4096 ≤ base + cnt - 1 then some (.memoryOutOfBounds kind (max base 4096)) else none

/-! ### Fetch (R101, R102) -/

/-- Fetch16: two bytes, the high byte at the lower address (R55), bounds-checked first (R101). -/
def fetchWord (s : State) : Except Fault Word :=
  match rangeFault .fetch s.pc.toNat 2 with
  | some e => .error e
  | none => .ok (wordOfBytes (Memory.read s.mem s.pc.toNat) (Memory.read s.mem (s.pc.toNat + 1)))

/-- Fetch, then decode; the fetch's error comes first (R236). -/
def fetchInstr (s : State) : Except Fault Instr :=
  match fetchWord s with
  | .error e => .error e
  | .ok op =>
    match decode op with
    | .ok i => .ok i
    | .error u => .error (.unknownOpcode u.op)

/-- Where an instruction can be placed so that the next fetch reads it: at PC if both bytes exist, else PC is moved to
0x200 first (log 7). -/
def State.placeable (s : State) : State :=
  s.setPc (if s.pc.toNat + 1 < 4096 then s.pc else 0x200)

end Sys2Proof.Machine
end

