-- ==== Sys2Proof/Machine/Flags.lean ====
section
/-!
DEFINITION. Every value an instruction writes to VF as a flag; "All are 0 or 1" (42_alu.md R152).
-/

namespace Sys2Proof.Machine

/-- A condition as the byte 0 or 1. -/
def flagByte (c : Bool) : Byte := if c then 1 else 0

/-- Carry of 8XY4: 1 if a + b > 255 (R146). -/
def carryFlag (a b : Byte) : Byte := flagByte (decide (255 < a.toNat + b.toNat))

/-- Flag of 8XY5 (a - b) and, with the operands exchanged, of 8XY7: 1 only if a > b; equality gives 0
(R147, R149, C4). -/
def greaterFlag (a b : Byte) : Byte := flagByte (decide (b.toNat < a.toNat))

/-- The bit a right shift by one shifts out: bit 0 (R148). -/
def shiftedOutRight (a : Byte) : Byte := flagByte (a.getLsbD 0)

/-- The bit a left shift by one shifts out: bit 7, as the value 0 or 1 (R150). -/
def shiftedOutLeft (a : Byte) : Byte := flagByte (a.getLsbD 7)

/-- Collision of DXYN (R194). -/
def collisionFlag (hit : Bool) : Byte := flagByte hit

end Sys2Proof.Machine
end

