-- ==== Sys2Proof/Machine/Operands.lean ====
section
/-!
DEFINITION. Every operand form of the instruction set (30_encoding.md R72, R73; 43_index_memory.md R176;
41_control_flow.md R131; 44_display.md R192; 45_timers_keys.md R213).
-/

namespace Sys2Proof.Machine

/-- zext_16 of a 12-bit address (R73). -/
def zext16 (nnn : BitVec 12) : Word := nnn.setWidth 16

/-- A byte as a 16-bit value (R7). -/
def byteToWord (b : Byte) : Word := b.setWidth 16

/-- Register offset to I: (I + V[x]) mod 65536 (R171, R176). -/
def State.indexPlus (s : State) (x : Reg) : Word := s.i + byteToWord (s.getV x)

/-- Font index to I: 0x50 + 5 * V[x], not masked; at most 0x54B, so it never wraps (R172, R176). -/
def fontAddress (digit : Byte) : Word := 0x50 + byteToWord digit * 5

/-- The jump-with-offset target zext_16(nnn) + V[0], not masked (R123). -/
def State.offsetTarget (s : State) (nnn : BitVec 12) : Word := zext16 nnn + byteToWord (s.getV 0)

/-- The BCD digits, hundreds, tens, ones (R173). -/
def bcdDigits (v : Byte) : List Byte :=
  [BitVec.ofNat 8 (v.toNat / 100), BitVec.ofNat 8 (v.toNat / 10 % 10), BitVec.ofNat 8 (v.toNat % 10)]

/-- V0 .. Vx in ascending order, inclusive of x (R174). -/
def State.regsUpTo (s : State) (x : Reg) : List Byte := s.v.toList.take (x.val + 1)

/-- Is the key with this number pressed? A number of 16 or more names no key and reads as not pressed (R131). -/
def State.keyDown (s : State) (k : Byte) : Bool :=
  if h : k.toNat < 16 then s.keys[k.toNat] else false

/-- The lowest-numbered pressed key in 0..FX0A_LAST_KEY (R213, D9). -/
def State.firstPressed (s : State) : Option (Fin 16) :=
  (List.finRange 16).find? (fun k => decide (k.val ≤ s.cfg.lastKey.toNat) && s.keys[k.val])

/-- A key's number as a register value. -/
def keyNumber (k : Fin 16) : Byte := BitVec.ofNat 8 k.val

/-- The sprite's starting column, V[x] mod 64 (R192). -/
def spriteColumn (vx : Byte) : Nat := vx.toNat % 64

/-- The sprite's starting row, V[y] mod 32 (R192). -/
def spriteRow (vy : Byte) : Nat := vy.toNat % 32

/-- The n sprite bytes MEM[I] .. MEM[I+n-1], all of them read, clipped rows too (R196). -/
def State.spriteBytes (s : State) (n : BitVec 4) : List Byte :=
  Memory.readBlock s.mem s.i.toNat n.toNat

/-- The bounds check of DXYN: none for n = 0, else all n bytes (R191, R196). -/
def State.spriteFault (s : State) (n : BitVec 4) : Option Fault :=
  if n = 0 then none else rangeFault .read s.i.toNat n.toNat

end Sys2Proof.Machine
end

