-- ==== Sys2Proof/Machine/Display.lean ====
section
/-!
DEFINITION. The display and the sprite engine (44_display.md).
-/

namespace Sys2Proof.Machine

/-- What a draw carries from pixel to pixel: the video memory, and whether a set bit has met a lit cell yet. -/
structure Canvas where
  vram : Memory
  hit  : Bool
  deriving DecidableEq, Repr

/-- The linear index of cell (px, py) (R35). -/
def cellIndex (px py : Nat) : Nat := py * 64 + px

/-- One set sprite bit: XOR its cell with 0xFF and note a collision with a cell that held 0xFF (R194). A pixel past the
right or bottom edge is not drawn and takes no part in collision (R193). -/
def plot (px py : Nat) (c : Canvas) : Canvas :=
  if px < 64 ∧ py < 32 then
    { vram := Memory.write c.vram (cellIndex px py) (Memory.read c.vram (cellIndex px py) ^^^ 0xFF)
      hit := c.hit || decide (Memory.read c.vram (cellIndex px py) = 0xFF) }
  else c

/-- The pixels of one sprite row from column `col` on, most significant bit first (R191): `left` columns are left. -/
def drawBits (ox py : Nat) (row : Byte) : (left col : Nat) → Canvas → Canvas
  | 0, _, c => c
  | left + 1, col, c =>
    drawBits ox py row left (col + 1) (if row.getLsbD (7 - col) then plot (ox + col) py c else c)

/-- One sprite row, 8 pixels (R196). -/
def drawRow (ox py : Nat) (row : Byte) (c : Canvas) : Canvas := drawBits ox py row 8 0 c

/-- The sprite's rows from screen row `py` down (R191). -/
def drawRows (ox : Nat) : (py : Nat) → List Byte → Canvas → Canvas
  | _, [], c => c
  | py, row :: rows, c => drawRows ox (py + 1) rows (drawRow ox py row c)

/-- The drawing of DXYN: V[x], V[y] and I are read before VF is written (R191, R107). -/
def State.drawn (s : State) (x y : Reg) (n : BitVec 4) : Canvas :=
  drawRows (spriteColumn (s.getV x)) (spriteRow (s.getV y)) (s.spriteBytes n) { vram := s.vram, hit := false }

/-- 00E0, R190: every cell 0x00. DRAW_FLAG and VF are unchanged (D15). -/
def execCls (s : State) : Host.Outcome State Fault Refusal :=
  .next (s.setVram []).advance

/-- DXYN, R191 to R196: VF is the collision flag, DRAW_FLAG is set on every completion (R195). -/
def execDrw (x y : Reg) (n : BitVec 4) (s : State) : Host.Outcome State Fault Refusal :=
  match s.spriteFault n with
  | some e => raise e
  | none =>
    .next (((s.setVram (s.drawn x y n).vram).setV VF (collisionFlag (s.drawn x y n).hit)).setDrawFlag true).advance

end Sys2Proof.Machine
end

