-- ==== Sys2Proof/Machine/Index.lean ====
section
/-!
DEFINITION. The index register and memory transfers (43_index_memory.md). Each completes with
npc = (PC + 2) mod 65536; no access changes I (R176). The range is checked before any write.
-/

namespace Sys2Proof.Machine

/-- ANNN, R170. -/
def execLdI (nnn : BitVec 12) (s : State) : Host.Outcome State Fault Refusal :=
  .next (s.setI (zext16 nnn)).advance

/-- FX1E, R171: modulo 65536, no flag. -/
def execAddI (x : Reg) (s : State) : Host.Outcome State Fault Refusal :=
  .next (s.setI (s.indexPlus x)).advance

/-- FX29, R172: V[x] is not masked. -/
def execLdF (x : Reg) (s : State) : Host.Outcome State Fault Refusal :=
  .next (s.setI (fontAddress (s.getV x))).advance

/-- FX33, R173. -/
def execLdB (x : Reg) (s : State) : Host.Outcome State Fault Refusal :=
  match rangeFault .write s.i.toNat 3 with
  | some e => raise e
  | none => .next (s.setMem (Memory.writeBlock s.mem s.i.toNat (bcdDigits (s.getV x)))).advance

/-- FX55, R174: V0..Vx inclusive, I unchanged (D19). -/
def execStRegs (x : Reg) (s : State) : Host.Outcome State Fault Refusal :=
  match rangeFault .write s.i.toNat (x.val + 1) with
  | some e => raise e
  | none => .next (s.setMem (Memory.writeBlock s.mem s.i.toNat (s.regsUpTo x))).advance

/-- FX65, R175: V0..Vx inclusive, I unchanged (D19). -/
def execLdRegs (x : Reg) (s : State) : Host.Outcome State Fault Refusal :=
  match rangeFault .read s.i.toNat (x.val + 1) with
  | some e => raise e
  | none => .next (s.setVUpTo x (fun k => Memory.read s.mem (s.i.toNat + k))).advance

end Sys2Proof.Machine
end

