-- ==== Sys2Proof/Machine/TimersKeys.lean ====
section
/-!
DEFINITION. Timer and keypad instructions (45_timers_keys.md). None raises an error. The tick that follows each cycle is
Machine/Timers.lean's.
-/

namespace Sys2Proof.Machine

/-- FX07, R210: DT as it stands before this cycle's tick. -/
def execLdVxDt (x : Reg) (s : State) : Host.Outcome State Fault Refusal :=
  .next (s.setV x s.dt).advance

/-- FX15, R211: DIVCNT is not reset. -/
def execLdDtVx (x : Reg) (s : State) : Host.Outcome State Fault Refusal :=
  .next (s.setDt (s.getV x)).advance

/-- FX18, R212: emits no sound event. -/
def execLdStVx (x : Reg) (s : State) : Host.Outcome State Fault Refusal :=
  .next (s.setSt (s.getV x)).advance

/-- FX0A, R213: with no scanned key pressed, PC is unchanged and the same instruction runs next cycle. -/
def execLdVxK (x : Reg) (s : State) : Host.Outcome State Fault Refusal :=
  match s.firstPressed with
  | some k => .next (s.setV x (keyNumber k)).advance
  | none => .next s

end Sys2Proof.Machine
end

