-- ==== Sys2Proof/Machine/Timers.lean ====
section
/-!
DEFINITION. The timer subsystem's tick (60_exceptions.md R244 to R249) and the end of a cycle (40_cycle.md R104, R105).
-/

namespace Sys2Proof.Machine

/-- DIVCNT after a tick: (DIVCNT + 1) mod DIV (R246). -/
def State.nextDivcnt (s : State) : Nat := (s.divcnt + 1) % s.cfg.div

/-- Does this tick decrement the timers? (R246) -/
def State.tickWraps (s : State) : Bool := decide (s.nextDivcnt = 0)

/-- One decrement of a timer; a zero timer stays zero (R247). -/
def countDown (t : Byte) : Byte := if t = 0 then 0 else t - 1

/-- TimerTick (R246). A sound event is recorded when the decrement takes ST from 1 to 0, and by nothing else (R249). -/
def timerTick (s : State) : State :=
  { s with
    divcnt := s.nextDivcnt
    dt := if s.tickWraps then countDown s.dt else s.dt
    st := if s.tickWraps then countDown s.st else s.st
    soundEvents :=
      if s.tickWraps && decide (s.st ≠ 0) && decide (countDown s.st = 0) then s.soundEvents + 1 else s.soundEvents }

/-- The end of a cycle: a successful instruction is followed by one tick, an error by none (R105, R106). -/
def endCycle : Host.Outcome State Fault Refusal → Host.Outcome State Fault Refusal
  | .next t => .next (timerTick t)
  | .fault e => .fault e
  | .refused r => .refused r

end Sys2Proof.Machine
end

