-- ==== Sys2Proof/Machine/Step.lean ====
section
/-!
DEFINITION. One step: one call of `execute_cycle()` (40_cycle.md R100, R109).
-/

namespace Sys2Proof.Machine

/-- Fetch and decode, execute and commit, then the timer tick; an error at any point ends the cycle (R109). -/
def step (s : State) : Host.Outcome State Fault Refusal :=
  match fetchInstr s with
  | .error e => raise e
  | .ok i => endCycle (exec i s)

/-- The state with an opcode-table row's word stored where the next fetch reads it (log 7). -/
def State.withFetchWord (s : State) (nbits w : Nat) : State :=
  s.placeable.setMem
    (Memory.writeBlock s.mem s.placeable.pc.toNat [(tableBytes nbits w).1, (tableBytes nbits w).2])

end Sys2Proof.Machine
end

