-- ==== Sys2Proof/WellFormed.lean ====
section
/-!
DEFINITION. Checks on what comes from outside the machine.
An `Instr` needs no check: each field has exactly the range of the bits it is read from, so "no register field can be
out of range" (30_encoding.md R72). What can be ill-formed is the host's configuration (00_scope.md R5, R245) and a
ROM (70_reset_and_hazards.md R276).
-/

namespace Sys2Proof

/-- The parameters as the host writes them down (R5). -/
structure HostParams where
  clockHz     : Nat
  fx0aLastKey : Nat
  fontset     : List Byte
  deriving DecidableEq, Repr

/-- CLOCK_HZ >= 60; "a model must refuse such a configuration" otherwise (R245, U8). -/
def HostParams.clockOk (p : HostParams) : Bool := decide (60 ≤ p.clockHz)

/-- FX0A_LAST_KEY is 14 or 15 (R5). -/
def HostParams.lastKeyOk (p : HostParams) : Bool := p.fx0aLastKey == 14 || p.fx0aLastKey == 15

/-- FONTSET is 80 bytes (R4, R40). -/
def HostParams.fontsetOk (p : HostParams) : Bool := p.fontset.length == 80

/-- The configuration is one the machine runs with. -/
def HostParams.wf (p : HostParams) : Bool := p.clockOk && p.lastKeyOk && p.fontsetOk

/-- A ROM that fits: at most 4096 - 0x200 = 3584 bytes (R276). -/
def romFits (bytes : List Byte) : Bool := decide (bytes.length ≤ 4096 - 0x200)

end Sys2Proof
end

