-- ==== Sys2Proof/Machine/HostOps.lean ====
section
/-!
DEFINITION. The host boundary (60_exceptions.md R252; 70_reset_and_hazards.md). These are all the ways the outside can
act on the machine, and they act only between cycles (R254; log 9). `execute_cycle()` is one `step`.
-/

namespace Sys2Proof.Machine

/-- A configuration from the host's parameters, or none where the model must refuse them (R245, U8). -/
def hostConfigure (p : HostParams) : Option Config :=
  if p.wf then
    some { clockAbove60 := p.clockHz - 60
           lastKey := if p.fx0aLastKey = 15 then .key15 else .key14
           fontset := Vector.ofFn (fun k : Fin 80 => p.fontset.getD k.val 0) }
  else none

/-- `new()` under a configuration: every component zero (R41, R270). -/
def hostNew (cfg : Config) : State := State.zero cfg

/-- `initialize()`: PC <- 0x200 and the fontset at 0x50..0x9F, nothing else (R42, R271). -/
def hostInitialize (s : State) : State :=
  (s.setMem (Memory.writeBlock s.mem 0x50 s.cfg.fontset.toList)).setPc 0x200

/-- Why `load_rom` fails (R235). -/
inductive LoadError where
  | romTooLarge
  deriving DecidableEq, Repr

/-- `load_rom(bytes)`: the bytes from 0x200, whatever PC holds; RomTooLarge writes nothing (R275, R276). -/
def hostLoadRom (bytes : List Byte) (s : State) : Except LoadError State :=
  if romFits bytes then .ok (s.setMem (Memory.writeBlock s.mem 0x200 bytes)) else .error .romTooLarge

/-- `set_keys(k)`: all 16 entries at once (R255). -/
def hostSetKeys (k : Vector Bool 16) (s : State) : State := s.setKeys k

/-- `read_vram()`: the 2048 cells in index order (R256). -/
def hostReadVram (s : State) : List Byte := Memory.readBlock s.vram 0 2048

/-- `read_draw_flag()` (R257). -/
def hostReadDrawFlag (s : State) : Bool := s.drawFlag

/-- `clear_draw_flag()` (R257). -/
def hostClearDrawFlag (s : State) : State := s.setDrawFlag false

/-- `take_sound_events()`: the count, which becomes 0 (R258). -/
def hostTakeSoundEvents (s : State) : Nat × State := (s.soundEvents, s.setSoundEvents 0)

/-- The host's operations (R252). -/
inductive HostOp where
  | new
  | initializeCore
  | loadRom (bytes : List Byte)
  | setKeys (k : Vector Bool 16)
  | executeCycle
  | readVram
  | readDrawFlag
  | clearDrawFlag
  | takeSoundEvents
  deriving DecidableEq, Repr

/-- What the host gets back (R252). -/
inductive HostReply where
  | nothing
  | loadOk
  | loadFailed (e : LoadError)
  | cycleOk
  | cycleError (e : Fault)
  | cycleRefused (r : Refusal)
  | vram (cells : List Byte)
  | flag (b : Bool)
  | count (n : Nat)
  deriving DecidableEq, Repr

/-- `execute_cycle()` as the host sees it: after an error the state is exactly as it was (R106). -/
def hostExecuteCycle (s : State) : State × HostReply :=
  match step s with
  | .next t => (t, .cycleOk)
  | .fault e => (s, .cycleError e)
  | .refused r => (s, .cycleRefused r)

/-- One host operation: the state after it and the reply. `new` keeps the configuration, and the count of draws, which
is the model's own, so that the bytes drawn after it are fresh (R11; log 4). -/
def hostCall (op : HostOp) (s : State) : State × HostReply :=
  match op with
  | .new => ({ hostNew s.cfg with draws := s.draws }, .nothing)
  | .initializeCore => (hostInitialize s, .nothing)
  | .loadRom bytes =>
    match hostLoadRom bytes s with
    | .ok t => (t, .loadOk)
    | .error e => (s, .loadFailed e)
  | .setKeys k => (hostSetKeys k s, .nothing)
  | .executeCycle => hostExecuteCycle s
  | .readVram => (s, .vram (hostReadVram s))
  | .readDrawFlag => (s, .flag (hostReadDrawFlag s))
  | .clearDrawFlag => (hostClearDrawFlag s, .nothing)
  | .takeSoundEvents => ((hostTakeSoundEvents s).2, .count (hostTakeSoundEvents s).1)

/-- The state after a sequence of host operations, in order (R253, R254). -/
def runHost : List HostOp → State → State
  | [], s => s
  | op :: ops, s => runHost ops (hostCall op s).1

end Sys2Proof.Machine
end

