-- ==== Sys2Proof/Safety.lean ====
section
/-!
DEFINITION. What a claim calls a good state and a safe run.
-/

namespace Sys2Proof.Machine

/-- The invariant of every reachable state: MEM and VRAM are in canonical form, every VRAM cell is 0x00 or 0xFF
(10_state.md R34), and DIVCNT lies in 0..DIV-1 (R32). -/
def State.wf (s : State) : Bool :=
  Memory.wf s.mem && Memory.vramWf s.vram && decide (s.divcnt < s.cfg.div)

/-- The bound on PC of R27: no PC is above 0x10FE, and no return address in use is above 0x1000. -/
def State.pcBounded (s : State) : Prop :=
  s.pc.toNat ≤ 0x10FE ∧ ∀ k : Fin 16, k.val < s.sp.val → (s.stack[k.val]).toNat ≤ 0x1000

/-- A cycle from this state ends without an error (R100). -/
def State.cycleOk (s : State) : Prop := ∃ t, step s = .next t

/-- `n` cycles from this state all end without an error. -/
def State.runsFor (s : State) (n : Nat) : Prop := ∃ t, Host.Core.run Sys2Proof.core n s = .next t

end Sys2Proof.Machine
end

