-- ==== Sys2Proof/Certificates/Slice0/Obligations.lean ====
section
/-!
DEFINITION. The statements for the provers. `Sys2Proof.Claims` holds the words they are written in; each
`Obligations.<Name>` names in its docstring the rules of spec/ it formalises. Results are stated as numbers (00_scope.md
R7): a register's `toNat`, exact sums, and `div` and `mod` written out.
-/

namespace Sys2Proof.Claims

open Sys2Proof.Machine

/-- The words with `(op AND mask) == pattern`, and no others, decode to the instruction `f op`. -/
def Encodes (mask pattern : Word) (f : Word → Instr) : Prop :=
  ∀ op : Word, op &&& mask = pattern ↔ decode op = .ok (f op)

/-- What an instruction may change, besides PC. Everything not named must stay. -/
structure Touched where
  regs     : List Reg := []
  i        : Bool := false
  sp       : Bool := false
  slots    : List Nat := []
  dt       : Bool := false
  st       : Bool := false
  vram     : Bool := false
  drawFlag : Bool := false
  draws    : Bool := false
  bytes    : List Nat := []

/-- The frame: from `s` to `t` nothing changed but PC and what `w` names. Every byte of MEM outside `w.bytes` reads as
before; the instruction never changes DIVCNT, KEYS, SOUND_EVENTS or the configuration. -/
def Frame (w : Touched) (s t : State) : Prop :=
  (∀ r : Reg, r ∉ w.regs → t.getV r = s.getV r) ∧
  (w.i = false → t.i = s.i) ∧
  (w.sp = false → t.sp = s.sp) ∧
  (∀ k : Fin 16, k.val ∉ w.slots → t.stack[k.val] = s.stack[k.val]) ∧
  (w.dt = false → t.dt = s.dt) ∧
  (w.st = false → t.st = s.st) ∧
  (w.vram = false → ∀ k, Memory.read t.vram k = Memory.read s.vram k) ∧
  (w.drawFlag = false → t.drawFlag = s.drawFlag) ∧
  (w.draws = false → t.draws = s.draws) ∧
  (∀ a, a ∉ w.bytes → Memory.read t.mem a = Memory.read s.mem a) ∧
  t.divcnt = s.divcnt ∧ t.keys = s.keys ∧ t.soundEvents = s.soundEvents ∧ t.cfg = s.cfg

/-- npc = (PC + k) mod 65536 (R25). -/
def NextPc (k : Nat) (s t : State) : Prop := t.pc.toNat = (s.pc.toNat + k) % 65536

/-- Does a set bit of the n-row sprite at MEM[I..], drawn with its origin at (ox, oy), fall on cell (px, py)?
Row r is MEM[I + r], bit 7 leftmost (R191, R196). -/
def spriteCovers (s : State) (ox oy n px py : Nat) : Prop :=
  ox ≤ px ∧ px < ox + 8 ∧ oy ≤ py ∧ py < oy + n ∧
    (Memory.read s.mem (s.i.toNat + (py - oy))).getLsbD (7 - (px - ox)) = true

/-- VRAM cell (px, py) (R35). -/
def cell (s : State) (px py : Nat) : Byte := Memory.read s.vram (py * 64 + px)

/-- The next fetch of `u` sees the byte `b` at address `a`: as the high byte of the word fetched at PC = a, where the word's
other byte exists, and as the low byte of the word fetched at PC = a - 1 (R55, R56). -/
def FetchSees (u : State) (a b : Nat) : Prop :=
  (u.pc.toNat = a → a + 1 < 4096 → ∃ op, fetchWord u = .ok op ∧ op.toNat / 256 = b) ∧
  (u.pc.toNat + 1 = a → ∃ op, fetchWord u = .ok op ∧ op.toNat % 256 = b)

/-- The rows of spec/opcode_table.json: mnemonic, mask, match. -/
def opcodeTable : List (String × Word × Word) :=
  [("CLS", 0xF0FF, 0x00E0), ("RET", 0xF0FF, 0x00EE), ("JP", 0xF000, 0x1000), ("CALL", 0xF000, 0x2000),
   ("SE_IMM", 0xF000, 0x3000), ("SNE_IMM", 0xF000, 0x4000), ("SE_REG", 0xF000, 0x5000),
   ("LD_IMM", 0xF000, 0x6000), ("ADD_IMM", 0xF000, 0x7000), ("LD_REG", 0xF00F, 0x8000), ("OR", 0xF00F, 0x8001),
   ("AND", 0xF00F, 0x8002), ("XOR", 0xF00F, 0x8003), ("ADD_REG", 0xF00F, 0x8004), ("SUB", 0xF00F, 0x8005),
   ("SHR", 0xF00F, 0x8006), ("SUBN", 0xF00F, 0x8007), ("SHL", 0xF00F, 0x800E), ("SNE_REG", 0xF000, 0x9000),
   ("LD_I", 0xF000, 0xA000), ("JP_V0", 0xF000, 0xB000), ("RND", 0xF000, 0xC000), ("DRW", 0xF000, 0xD000),
   ("SKP", 0xF0FF, 0xE09E), ("SKNP", 0xF0FF, 0xE0A1), ("LD_VX_DT", 0xF0FF, 0xF007), ("LD_VX_K", 0xF0FF, 0xF00A),
   ("LD_DT_VX", 0xF0FF, 0xF015), ("LD_ST_VX", 0xF0FF, 0xF018), ("ADD_I", 0xF0FF, 0xF01E), ("LD_F", 0xF0FF, 0xF029),
   ("LD_B", 0xF0FF, 0xF033), ("ST_REGS", 0xF0FF, 0xF055), ("LD_REGS", 0xF0FF, 0xF065)]

/-- The mnemonic of an instruction's row in spec/opcode_table.json. -/
def mnemonic : Instr → String
  | .cls => "CLS" | .ret => "RET" | .jp _ => "JP" | .call _ => "CALL"
  | .seImm _ _ => "SE_IMM" | .sneImm _ _ => "SNE_IMM" | .seReg _ _ => "SE_REG"
  | .ldImm _ _ => "LD_IMM" | .addImm _ _ => "ADD_IMM" | .ldReg _ _ => "LD_REG" | .orReg _ _ => "OR"
  | .andReg _ _ => "AND" | .xorReg _ _ => "XOR" | .addReg _ _ => "ADD_REG" | .sub _ _ => "SUB"
  | .shr _ => "SHR" | .subn _ _ => "SUBN" | .shl _ => "SHL" | .sneReg _ _ => "SNE_REG"
  | .ldI _ => "LD_I" | .jpV0 _ => "JP_V0" | .rnd _ _ => "RND" | .drw _ _ _ => "DRW"
  | .skp _ => "SKP" | .sknp _ => "SKNP" | .ldVxDt _ => "LD_VX_DT" | .ldVxK _ => "LD_VX_K"
  | .ldDtVx _ => "LD_DT_VX" | .ldStVx _ => "LD_ST_VX" | .addI _ => "ADD_I" | .ldF _ => "LD_F"
  | .ldB _ => "LD_B" | .stRegs _ => "ST_REGS" | .ldRegs _ => "LD_REGS"

/-- The words of R81's table. -/
def IllegalWord (op : Word) : Prop :=
  (op.toNat / 4096 = 0x0 ∧ op.toNat % 256 ∉ [0xE0, 0xEE]) ∨
  (op.toNat / 4096 = 0x8 ∧ op.toNat % 16 ∈ [0x8, 0x9, 0xA, 0xB, 0xC, 0xD, 0xF]) ∨
  (op.toNat / 4096 = 0xE ∧ op.toNat % 256 ∉ [0x9E, 0xA1]) ∨
  (op.toNat / 4096 = 0xF ∧ op.toNat % 256 ∉ [0x07, 0x0A, 0x15, 0x18, 0x1E, 0x29, 0x33, 0x55, 0x65])

/-- R237's table: the error an instruction raises, and when. -/
def Raises (i : Instr) (s : State) (e : Fault) : Prop :=
  match i with
  | .call _ => s.sp.val = 16 ∧ e = .stackOverflow
  | .ret => s.sp.val = 0 ∧ e = .stackUnderflow
  | .drw _ _ n =>
    0 < n.toNat ∧ 4096 ≤ s.i.toNat + n.toNat - 1 ∧ e = .memoryOutOfBounds .read (max s.i.toNat 4096)
  | .ldB _ => 4096 ≤ s.i.toNat + 2 ∧ e = .memoryOutOfBounds .write (max s.i.toNat 4096)
  | .stRegs x => 4096 ≤ s.i.toNat + x.val ∧ e = .memoryOutOfBounds .write (max s.i.toNat 4096)
  | .ldRegs x => 4096 ≤ s.i.toNat + x.val ∧ e = .memoryOutOfBounds .read (max s.i.toNat 4096)
  | _ => False

/-- The instructions that write VF as a flag (R22). -/
def writesFlag : Instr → Bool
  | .addReg _ _ => true
  | .sub _ _ => true
  | .shr _ => true
  | .subn _ _ => true
  | .shl _ => true
  | .drw _ _ _ => true
  | _ => false

/-- Is V[r] a destination register of the instruction as data (R22's 6XNN, 7XNN, 8XY0 to 8XY3, CXNN, FX07, FX0A,
FX65 and the data results of the flag writers)? -/
def writesData (i : Instr) (r : Reg) : Bool :=
  match i with
  | .ldImm x _ => r == x
  | .addImm x _ => r == x
  | .ldReg x _ => r == x
  | .orReg x _ => r == x
  | .andReg x _ => r == x
  | .xorReg x _ => r == x
  | .addReg x _ => r == x
  | .sub x _ => r == x
  | .shr x => r == x
  | .subn x _ => r == x
  | .shl x => r == x
  | .rnd x _ => r == x
  | .ldVxDt x => r == x
  | .ldVxK x => r == x
  | .ldRegs x => decide (r ≤ x)
  | _ => false

/-- The host operations that neither rewrite MEM or PC nor replace the state (R106, R262). -/
def keepsProgram : HostOp → Bool
  | .new => false
  | .initializeCore => false
  | .loadRom _ => false
  | .setKeys _ => true
  | .executeCycle => true
  | .readVram => true
  | .readDrawFlag => true
  | .clearDrawFlag => true
  | .takeSoundEvents => true

end Sys2Proof.Claims

open Sys2Proof Sys2Proof.Machine Sys2Proof.Claims

/-! ### Encoding (30_encoding.md) -/

/-- R71: the five canonical fields and the top nibble of every word. -/
def Obligations.FieldsOfAWord : Prop :=
  ∀ op : Word,
    (opTop op).toNat = op.toNat / 4096 ∧ (opX op).val = op.toNat / 256 % 16 ∧ (opY op).val = op.toNat / 16 % 16 ∧
    (opN op).toNat = op.toNat % 16 ∧ (opNN op).toNat = op.toNat % 256 ∧ (opNNN op).toNat = op.toNat % 4096

/-- Decoding an encoded instruction gives it back, every operand at every value, and the byte stream form consumes exactly
its two bytes (30_encoding.md sections 1 and 2). -/
def Obligations.DecodeOfEncode : Prop :=
  ∀ i : Instr, decode (encode i) = .ok i ∧ ∀ rest, decodeBytes (encodeBytes i ++ rest) = .ok (i, rest)

/-- The other direction: a word that decodes is its instruction's encoding but for the bits that the instruction ignores.
Which bits those are is the spec's choice (D1, D20; log 10). -/
def Obligations.EncodeOfDecode : Prop :=
  ∀ (op : Word) (i : Instr), decode op = .ok i → encode i = op &&& ~~~(ignoredMask i)

/-- The nested dispatch and the mask table select the same row: a row matches a word exactly when the decoder gives an
instruction of that row. (So exactly one row matches a legal word and none an illegal one, which the spec marks as
derived; the table's rows rest on D1 and GK2, GK3, GK5, logs 10 and 22.) -/
def Obligations.DecodeMatchesOpcodeTable : Prop :=
  ∀ (op : Word), ∀ row ∈ opcodeTable,
    op &&& row.2.1 = row.2.2 ↔ ∃ i, decode op = .ok i ∧ mnemonic i = row.1

/-- The illegal words are exactly those of the spec's table (its counts of words are left out), and the error carries the
whole word, which is the spec's choice (D1, D22; logs 8 and 10). -/
def Obligations.IllegalWordsAreExactlyThese : Prop :=
  ∀ op : Word,
    (IllegalWord op → decode op = .error ⟨op⟩) ∧ (¬ IllegalWord op → ∃ i, decode op = .ok i)

/-- Words of 95_test_vectors.md, one or more per top nibble: V1, V22, V20, V21, V27, V28, V6, S3, S4, S5, S6, V7, S7, V25,
V57, S8, V30, S9, V96, and the illegal words of S12, V3, V4 and V5. The bits ignored in 01E0, 5121 and 9127 are the spec's
choice (D1; log 10), and that 5 tests equality and 9 inequality its general knowledge (GK5; log 22). -/
def Obligations.SampleWordsDecode : Prop :=
  decode 0x01E0 = .ok .cls ∧ decode 0x00EE = .ok .ret ∧ decode 0x1ABC = .ok (.jp 0xABC) ∧
  decode 0x2300 = .ok (.call 0x300) ∧ decode 0x3142 = .ok (.seImm 1 0x42) ∧ decode 0x4142 = .ok (.sneImm 1 0x42) ∧
  decode 0x5121 = .ok (.seReg 1 2) ∧ decode 0x6A05 = .ok (.ldImm 0xA 0x05) ∧ decode 0x7001 = .ok (.addImm 0 0x01) ∧
  decode 0x8124 = .ok (.addReg 1 2) ∧ decode 0x8125 = .ok (.sub 1 2) ∧ decode 0x9127 = .ok (.sneReg 1 2) ∧
  decode 0xA123 = .ok (.ldI 0x123) ∧ decode 0xB200 = .ok (.jpV0 0x200) ∧ decode 0xC10F = .ok (.rnd 1 0x0F) ∧
  decode 0xD011 = .ok (.drw 0 1 1) ∧ decode 0xE19E = .ok (.skp 1) ∧ decode 0xE1A1 = .ok (.sknp 1) ∧
  decode 0xF133 = .ok (.ldB 1) ∧ decode 0xF30A = .ok (.ldVxK 3) ∧
  decode 0x0000 = .error ⟨0x0000⟩ ∧ decode 0x8008 = .error ⟨0x8008⟩ ∧ decode 0xE19F = .error ⟨0xE19F⟩ ∧
  decode 0xF016 = .error ⟨0xF016⟩

/-! ### The cycle (40_cycle.md) -/

/-- When the two bytes at PC decode to an instruction, the step is `exec` of it, followed, when it succeeds, by one timer
tick, so that the tick sees the instruction's writes (40_cycle.md section 1). That an error of the instruction is the
step's, with no tick, is the spec's choice (D3; log 8), and so is that an odd PC fetches like any other (C3, D5; log 13). -/
def Obligations.StepRunsTheDecodedInstruction : Prop :=
  ∀ (s : State) (i : Instr), s.pc.toNat + 1 < 4096 →
    decode (wordOfBytes (Memory.read s.mem s.pc.toNat) (Memory.read s.mem (s.pc.toNat + 1))) = .ok i →
      (∀ t, exec i s = .next t → step s = .next (timerTick t)) ∧
      (∀ e, exec i s = .fault e → step s = .fault e)

/-- The fetched word is big-endian, the byte at the lower address its high byte (20_memory.md section 3), at every PC whose
two bytes exist. That an odd PC fetches like any other is the spec's choice (C3, D5; log 13). -/
def Obligations.FetchIsBigEndian : Prop :=
  ∀ s : State, s.pc.toNat + 1 < 4096 →
    ∃ op, fetchWord s = .ok op ∧
      op.toNat = (Memory.read s.mem s.pc.toNat).toNat * 256 + (Memory.read s.mem (s.pc.toNat + 1)).toNat

/-- The two errors before an instruction runs. A fetch that would leave memory raises MemoryOutOfBounds(fetch, a) with
a = PC if PC >= 4096 and a = 4096 if PC = 4095, the spec's own addition (D4, D39; log 12). A fetched word that is illegal
raises UnknownOpcode with the full word (D22; log 8). -/
def Obligations.FetchErrorsEndTheCycle : Prop :=
  ∀ s : State,
    (4096 ≤ s.pc.toNat → step s = .fault (.memoryOutOfBounds .fetch s.pc.toNat)) ∧
    (s.pc.toNat = 4095 → step s = .fault (.memoryOutOfBounds .fetch 4096)) ∧
    (s.pc.toNat + 1 < 4096 →
      IllegalWord (wordOfBytes (Memory.read s.mem s.pc.toNat) (Memory.read s.mem (s.pc.toNat + 1))) →
        step s = .fault (.unknownOpcode
          (wordOfBytes (Memory.read s.mem s.pc.toNat) (Memory.read s.mem (s.pc.toNat + 1)))))

/-- Which instructions raise an error, which, and exactly when; every other instruction, and these otherwise, succeed. The
spec marks its table as derived, and MemoryOutOfBounds as its own addition (C2, D4; log 12). So every cycle ends in a next
state or in an error: nothing is refused. -/
def Obligations.ErrorsAreExactlyTheTable : Prop :=
  (∀ (i : Instr) (s : State),
    (∀ e, exec i s = .fault e ↔ Raises i s e) ∧ ((∀ e, ¬ Raises i s e) → ∃ t, exec i s = .next t)) ∧
  (∀ s : State, (∃ t, step s = .next t) ∨ (∃ e, step s = .fault e))

/-- After an error the state is exactly as it was, and the host's cycle gives the same error again whatever sequence of
operations comes between, as long as none is `initialize`, `load_rom` or `new`. The spec's choice (D3, D40; log 8). -/
def Obligations.ErrorRepeatsUntilReloaded : Prop :=
  ∀ (s : State) (e : Fault), step s = .fault e →
    hostExecuteCycle s = (s, .cycleError e) ∧
    ∀ ops : List HostOp, (∀ op ∈ ops, keepsProgram op = true) →
      hostExecuteCycle (runHost ops s) = (runHost ops s, .cycleError e)

/-- Every instruction writes exactly one next PC, of one of the kinds of 10_state.md section 4. The unmasked target of BNNN
is the spec's reading (D44; log 20), the popped address with no +2 the pair of C1 and D2 (log 11). PC stays only for FX0A
when no key in 0..FX0A_LAST_KEY is pressed (D10; log 3). -/
def Obligations.NextPcKinds : Prop :=
  ∀ (i : Instr) (s t : State), exec i s = .next t →
    NextPc 2 s t ∨
    (NextPc 4 s t ∧ ∃ x y nn, i ∈ [.seImm x nn, .sneImm x nn, .seReg x y, .sneReg x y, .skp x, .sknp x]) ∨
    (∃ nnn, (i = .jp nnn ∨ i = .call nnn) ∧ t.pc.toNat = nnn.toNat) ∨
    (∃ nnn, i = .jpV0 nnn ∧ t.pc.toNat = nnn.toNat + (s.getV 0).toNat) ∨
    (i = .ret ∧ ∃ k : Fin 16, s.sp.val = k.val + 1 ∧ t.pc = s.stack[k.val]) ∨
    (∃ x, i = .ldVxK x ∧ t = s ∧ ∀ k : Fin 16, k.val ≤ s.cfg.lastKey.toNat → s.keys[k.val] = false)

/-! ### Control transfer and skips (41_control_flow.md) -/

/-- R121: the absolute jump; nothing but PC changes. -/
def Obligations.JumpSetsPc : Prop :=
  Encodes 0xF000 0x1000 (fun op => .jp (opNNN op)) ∧
  (∀ nnn s, ∃ t, exec (.jp nnn) s = .next t ∧ t.pc.toNat = nnn.toNat ∧ Frame {} s t)

/-- The jump with offset: the register is V0 and the sum is not masked, the spec's reading of its source (D44; log 20).
Nothing but PC changes. -/
def Obligations.JumpWithOffsetAddsV0 : Prop :=
  Encodes 0xF000 0xB000 (fun op => .jpV0 (opNNN op)) ∧
  (∀ nnn s, ∃ t, exec (.jpV0 nnn) s = .next t ∧ t.pc.toNat = nnn.toNat + (s.getV 0).toNat ∧ Frame {} s t)

/-- CALL pushes (PC + 2) mod 65536, which is the spec's choice between two readings (C1, D2; log 11), and jumps; at SP = 16
it raises StackOverflow. -/
def Obligations.CallPushesReturnAddress : Prop :=
  Encodes 0xF000 0x2000 (fun op => .call (opNNN op)) ∧
  (∀ nnn (s : State) (k : Fin 16), s.sp.val = k.val →
    ∃ t, exec (.call nnn) s = .next t ∧ t.pc.toNat = nnn.toNat ∧
      t.stack[k.val].toNat = (s.pc.toNat + 2) % 65536 ∧ t.sp.val = k.val + 1 ∧
      Frame { sp := true, slots := [k.val] } s t) ∧
  (∀ nnn (s : State), s.sp.val = 16 → exec (.call nnn) s = .fault .stackOverflow)

/-- RET pops into PC, with no +2 (the pair of C1 and D2; log 11), and leaves every slot's value in place (D24; log 23); at
SP = 0 it raises StackUnderflow. That op[11:8] is ignored is the spec's choice (D1; log 10). -/
def Obligations.ReturnPopsIntoPc : Prop :=
  Encodes 0xF0FF 0x00EE (fun _ => .ret) ∧
  (∀ (s : State) (k : Fin 16), s.sp.val = k.val + 1 →
    ∃ t, exec .ret s = .next t ∧ t.pc = s.stack[k.val] ∧ t.sp.val = k.val ∧ Frame { sp := true } s t) ∧
  (∀ s : State, s.sp.val = 0 → exec .ret s = .fault .stackUnderflow)

/-- A RET whose stack is as the CALL left it resumes at the instruction after the CALL, with SP as before the CALL
(vector V22; C1, D2; log 11). -/
def Obligations.CallThenReturnResumesAfterCall : Prop :=
  ∀ nnn (s t u : State), exec (.call nnn) s = .next t → u.sp = t.sp → u.stack = t.stack →
    ∃ w, exec .ret u = .next w ∧ w.pc.toNat = (s.pc.toNat + 2) % 65536 ∧ w.sp = s.sp

/-- R124, R125: the compare skips with an immediate; nothing but PC changes. -/
def Obligations.CompareImmediateSkips : Prop :=
  Encodes 0xF000 0x3000 (fun op => .seImm (opX op) (opNN op)) ∧
  Encodes 0xF000 0x4000 (fun op => .sneImm (opX op) (opNN op)) ∧
  (∀ x nn s, ∃ t, exec (.seImm x nn) s = .next t ∧ NextPc (if s.getV x = nn then 4 else 2) s t ∧ Frame {} s t) ∧
  (∀ x nn s, ∃ t, exec (.sneImm x nn) s = .next t ∧ NextPc (if s.getV x ≠ nn then 4 else 2) s t ∧ Frame {} s t)

/-- The compare skips of two registers; nothing but PC changes. That the low nibble is not examined is the spec's choice
(D1; log 10), and that 5 tests equality and 9 inequality is its general knowledge (GK5; log 22). -/
def Obligations.CompareRegisterSkips : Prop :=
  Encodes 0xF000 0x5000 (fun op => .seReg (opX op) (opY op)) ∧
  Encodes 0xF000 0x9000 (fun op => .sneReg (opX op) (opY op)) ∧
  (∀ x y s, ∃ t, exec (.seReg x y) s = .next t ∧ NextPc (if s.getV x = s.getV y then 4 else 2) s t ∧ Frame {} s t) ∧
  (∀ x y s, ∃ t, exec (.sneReg x y) s = .next t ∧ NextPc (if s.getV x ≠ s.getV y then 4 else 2) s t ∧ Frame {} s t)

/-- The key skips. That a key number of 16 or more reads as not pressed is the spec's choice (D8; log 21). -/
def Obligations.KeySkips : Prop :=
  Encodes 0xF0FF 0xE09E (fun op => .skp (opX op)) ∧ Encodes 0xF0FF 0xE0A1 (fun op => .sknp (opX op)) ∧
  (∀ x (s : State) (k : Fin 16), (s.getV x).toNat = k.val →
    (∃ t, exec (.skp x) s = .next t ∧ NextPc (if s.keys[k.val] = true then 4 else 2) s t ∧ Frame {} s t) ∧
    (∃ t, exec (.sknp x) s = .next t ∧ NextPc (if s.keys[k.val] = true then 2 else 4) s t ∧ Frame {} s t)) ∧
  (∀ x (s : State), 16 ≤ (s.getV x).toNat →
    (∃ t, exec (.skp x) s = .next t ∧ NextPc 2 s t ∧ Frame {} s t) ∧
    (∃ t, exec (.sknp x) s = .next t ∧ NextPc 4 s t ∧ Frame {} s t))

/-! ### Register loads and the ALU (42_alu.md) -/

/-- R140, R141: load an immediate, and add an immediate modulo 256 with no flag. -/
def Obligations.LoadAndAddImmediate : Prop :=
  Encodes 0xF000 0x6000 (fun op => .ldImm (opX op) (opNN op)) ∧
  Encodes 0xF000 0x7000 (fun op => .addImm (opX op) (opNN op)) ∧
  (∀ x nn s, ∃ t, exec (.ldImm x nn) s = .next t ∧ t.getV x = nn ∧ NextPc 2 s t ∧ Frame { regs := [x] } s t) ∧
  (∀ x nn s, ∃ t, exec (.addImm x nn) s = .next t ∧
    (t.getV x).toNat = ((s.getV x).toNat + nn.toNat) % 256 ∧ NextPc 2 s t ∧ Frame { regs := [x] } s t)

/-- Copy, OR, AND, XOR; VF is unchanged unless it is the destination. Which low nibble names which operation is the spec's
general knowledge (GK2; log 22). -/
def Obligations.CopyAndLogic : Prop :=
  Encodes 0xF00F 0x8000 (fun op => .ldReg (opX op) (opY op)) ∧
  Encodes 0xF00F 0x8001 (fun op => .orReg (opX op) (opY op)) ∧
  Encodes 0xF00F 0x8002 (fun op => .andReg (opX op) (opY op)) ∧
  Encodes 0xF00F 0x8003 (fun op => .xorReg (opX op) (opY op)) ∧
  (∀ x y s, ∃ t, exec (.ldReg x y) s = .next t ∧ t.getV x = s.getV y ∧
    NextPc 2 s t ∧ Frame { regs := [x] } s t) ∧
  (∀ x y s, ∃ t, exec (.orReg x y) s = .next t ∧ (t.getV x).toNat = (s.getV x).toNat ||| (s.getV y).toNat ∧
    NextPc 2 s t ∧ Frame { regs := [x] } s t) ∧
  (∀ x y s, ∃ t, exec (.andReg x y) s = .next t ∧ (t.getV x).toNat = (s.getV x).toNat &&& (s.getV y).toNat ∧
    NextPc 2 s t ∧ Frame { regs := [x] } s t) ∧
  (∀ x y s, ∃ t, exec (.xorReg x y) s = .next t ∧ (t.getV x).toNat = (s.getV x).toNat ^^^ (s.getV y).toNat ∧
    NextPc 2 s t ∧ Frame { regs := [x] } s t)

/-- R146: add with VF = carry, written last. -/
def Obligations.AddSetsCarry : Prop :=
  Encodes 0xF00F 0x8004 (fun op => .addReg (opX op) (opY op)) ∧
  ∀ x y (s : State), ∃ t, exec (.addReg x y) s = .next t ∧
    (x ≠ VF → (t.getV x).toNat = ((s.getV x).toNat + (s.getV y).toNat) % 256) ∧
    (t.getV VF).toNat = (if (s.getV x).toNat + (s.getV y).toNat > 255 then 1 else 0) ∧
    NextPc 2 s t ∧ Frame { regs := [x, VF] } s t

/-- Subtract and reverse subtract modulo 256, with VF written last. VF = 1 only for a strictly greater minuend is the spec's
choice (C4, D21; log 14), and the number 7 its general knowledge (GK2; log 22). -/
def Obligations.SubtractsSetGreaterFlag : Prop :=
  Encodes 0xF00F 0x8005 (fun op => .sub (opX op) (opY op)) ∧
  Encodes 0xF00F 0x8007 (fun op => .subn (opX op) (opY op)) ∧
  (∀ x y (s : State), ∃ t, exec (.sub x y) s = .next t ∧
    (x ≠ VF → (t.getV x).toNat = ((s.getV x).toNat + 256 - (s.getV y).toNat) % 256) ∧
    (t.getV VF).toNat = (if (s.getV x).toNat > (s.getV y).toNat then 1 else 0) ∧
    NextPc 2 s t ∧ Frame { regs := [x, VF] } s t) ∧
  (∀ x y (s : State), ∃ t, exec (.subn x y) s = .next t ∧
    (x ≠ VF → (t.getV x).toNat = ((s.getV y).toNat + 256 - (s.getV x).toNat) % 256) ∧
    (t.getV VF).toNat = (if (s.getV y).toNat > (s.getV x).toNat then 1 else 0) ∧
    NextPc 2 s t ∧ Frame { regs := [x, VF] } s t)

/-- Shift Vx by one, with VF = the bit shifted out as 0 or 1, written last. That Vx, not Vy, is shifted is the spec's
reading (D20; log 20), and the numbers 6 and E its general knowledge (GK2; log 22). -/
def Obligations.ShiftsSetShiftedOutBit : Prop :=
  Encodes 0xF00F 0x8006 (fun op => .shr (opX op)) ∧ Encodes 0xF00F 0x800E (fun op => .shl (opX op)) ∧
  (∀ x (s : State), ∃ t, exec (.shr x) s = .next t ∧
    (x ≠ VF → (t.getV x).toNat = (s.getV x).toNat / 2) ∧ (t.getV VF).toNat = (s.getV x).toNat % 2 ∧
    NextPc 2 s t ∧ Frame { regs := [x, VF] } s t) ∧
  (∀ x (s : State), ∃ t, exec (.shl x) s = .next t ∧
    (x ≠ VF → (t.getV x).toNat = (s.getV x).toNat * 2 % 256) ∧ (t.getV VF).toNat = (s.getV x).toNat / 128 ∧
    NextPc 2 s t ∧ Frame { regs := [x, VF] } s t)

/-- RND draws one byte, the model's free value `Config.freeByte` at the count of draws (D12; log 4), stores it masked with nn,
and moves the count on, so that the next draw is another value of it. Nothing constrains `Config.freeByte`, so this holds
whatever is drawn; with nn = 0 the result is 0. -/
def Obligations.RandomIsMasked : Prop :=
  Encodes 0xF000 0xC000 (fun op => .rnd (opX op) (opNN op)) ∧
  ∀ x nn (s : State), ∃ t, exec (.rnd x nn) s = .next t ∧
    (t.getV x).toNat = (Config.freeByte s.draws).toNat &&& nn.toNat ∧ t.draws = s.draws + 1 ∧
    (nn = 0 → t.getV x = 0) ∧ NextPc 2 s t ∧ Frame { regs := [x], draws := true } s t

/-- VF changes only in the instructions that write it as a flag, where it ends as 0 or 1, and where VF is the
destination register (10_state.md section 2). -/
def Obligations.OnlyFlagWritersTouchVF : Prop :=
  ∀ (i : Instr) (s t : State), exec i s = .next t →
    (writesFlag i = true → (t.getV VF).toNat ≤ 1) ∧
    (writesFlag i = false → writesData i VF = false → t.getV VF = s.getV VF)

/-! ### Index register and memory transfers (43_index_memory.md) -/

/-- R170: load I with an address. -/
def Obligations.LoadIndex : Prop :=
  Encodes 0xF000 0xA000 (fun op => .ldI (opNNN op)) ∧
  (∀ nnn s, ∃ t, exec (.ldI nnn) s = .next t ∧ t.i.toNat = nnn.toNat ∧ NextPc 2 s t ∧ Frame { i := true } s t)

/-- The two other writers of I. That FX1E wraps modulo 65536 and that FX29 does not mask V[x] are the spec's choices
(D6, D42; log 20). -/
def Obligations.AddAndFontIndex : Prop :=
  Encodes 0xF0FF 0xF01E (fun op => .addI (opX op)) ∧ Encodes 0xF0FF 0xF029 (fun op => .ldF (opX op)) ∧
  (∀ x (s : State), ∃ t, exec (.addI x) s = .next t ∧ t.i.toNat = (s.i.toNat + (s.getV x).toNat) % 65536 ∧
    NextPc 2 s t ∧ Frame { i := true } s t) ∧
  (∀ x (s : State), ∃ t, exec (.ldF x) s = .next t ∧ t.i.toNat = 0x50 + (s.getV x).toNat * 5 ∧
    NextPc 2 s t ∧ Frame { i := true } s t)

/-- FX33 stores hundreds, tens and ones at I, I+1, I+2, and nothing else; I is unchanged, the spec's choice (D19; log 20). Out
of range it raises MemoryOutOfBounds(write, max(I, 4096)), the spec's own addition (D4, D39; log 12). The premise is the
model's invariant that MEM is canonical (log 6). -/
def Obligations.BcdStoresDigits : Prop :=
  Encodes 0xF0FF 0xF033 (fun op => .ldB (opX op)) ∧
  (∀ x (s : State), Memory.wf s.mem = true → s.i.toNat + 2 < 4096 →
    ∃ t, exec (.ldB x) s = .next t ∧
      (Memory.read t.mem s.i.toNat).toNat = (s.getV x).toNat / 100 ∧
      (Memory.read t.mem (s.i.toNat + 1)).toNat = (s.getV x).toNat / 10 % 10 ∧
      (Memory.read t.mem (s.i.toNat + 2)).toNat = (s.getV x).toNat % 10 ∧
      NextPc 2 s t ∧ Frame { bytes := List.range' s.i.toNat 3 } s t) ∧
  (∀ x (s : State), 4096 ≤ s.i.toNat + 2 →
    exec (.ldB x) s = .fault (.memoryOutOfBounds .write (max s.i.toNat 4096)))

/-- FX55 stores V0..Vx, inclusive, at I.., and nothing else; I is unchanged, the spec's choice (D19; log 20). Out of range it
raises MemoryOutOfBounds(write, max(I, 4096)) (D4, D39; log 12). -/
def Obligations.BlockStore : Prop :=
  Encodes 0xF0FF 0xF055 (fun op => .stRegs (opX op)) ∧
  (∀ x (s : State), Memory.wf s.mem = true → s.i.toNat + x.val < 4096 →
    ∃ t, exec (.stRegs x) s = .next t ∧
      (∀ r : Reg, r ≤ x → Memory.read t.mem (s.i.toNat + r.val) = s.getV r) ∧
      NextPc 2 s t ∧ Frame { bytes := List.range' s.i.toNat (x.val + 1) } s t) ∧
  (∀ x (s : State), 4096 ≤ s.i.toNat + x.val →
    exec (.stRegs x) s = .fault (.memoryOutOfBounds .write (max s.i.toNat 4096)))

/-- FX65 loads V0..Vx, inclusive, from I.., VF as an ordinary register; I is unchanged, the spec's choice (D19; log 20). Out
of range it raises MemoryOutOfBounds(read, max(I, 4096)) (D4, D39; log 12). -/
def Obligations.BlockLoad : Prop :=
  Encodes 0xF0FF 0xF065 (fun op => .ldRegs (opX op)) ∧
  (∀ x (s : State), s.i.toNat + x.val < 4096 →
    ∃ t, exec (.ldRegs x) s = .next t ∧
      (∀ r : Reg, r ≤ x → t.getV r = Memory.read s.mem (s.i.toNat + r.val)) ∧
      NextPc 2 s t ∧ Frame { regs := (List.finRange 16).filter (fun r => decide (r ≤ x)) } s t) ∧
  (∀ x (s : State), 4096 ≤ s.i.toNat + x.val →
    exec (.ldRegs x) s = .fault (.memoryOutOfBounds .read (max s.i.toNat 4096)))

/-- What FX55 stored, FX65 loads back, in any state with that memory and that I. -/
def Obligations.BlockStoreThenLoad : Prop :=
  ∀ x (s t u w : State), Memory.wf s.mem = true → exec (.stRegs x) s = .next t → u.mem = t.mem → u.i = s.i →
    exec (.ldRegs x) u = .next w → ∀ r : Reg, r ≤ x → w.getV r = s.getV r

/-- A byte that FX55 or FX33 stored at a is the high byte of the instruction fetched at PC = a (where a + 1 exists) and the
low byte of the one fetched at PC = a - 1, at once: what the spec marks as derived from its byte order and its one memory
array. The premise is the model's invariant that MEM is canonical (log 6); an odd PC is D5 (log 13). -/
def Obligations.StoredBytesAreFetched : Prop :=
  (∀ x (s t u : State) (k : Reg), Memory.wf s.mem = true → exec (.stRegs x) s = .next t → u.mem = t.mem → k ≤ x →
    FetchSees u (s.i.toNat + k.val) (s.getV k).toNat) ∧
  (∀ x (s t u : State) (j : Fin 3), Memory.wf s.mem = true → exec (.ldB x) s = .next t → u.mem = t.mem →
    FetchSees u (s.i.toNat + j.val) ((s.getV x).toNat / 10 ^ (2 - j.val) % 10))

/-! ### Display (44_display.md) -/

/-- CLS clears all 2048 cells and leaves VF as it was. That DRAW_FLAG is unchanged is the spec's choice (D15; log 17), and so
is that op[11:8] is ignored (D1; log 10). -/
def Obligations.ClearScreen : Prop :=
  Encodes 0xF0FF 0x00E0 (fun _ => .cls) ∧
  ∀ s : State, ∃ t, exec .cls s = .next t ∧ (∀ px py, cell t px py = 0x00) ∧ NextPc 2 s t ∧ Frame { vram := true } s t

/-- DRW flips exactly the cells of the screen under set sprite bits, whose origin wraps and whose pixels clip; VF = 1 exactly
when one of those cells held 0xFF; DRAW_FLAG is set; out of range it raises MemoryOutOfBounds(read, max(I, 4096)), and
never for n = 0. Cell order, edge policy and the range check are the spec's choices (D16, D17, D18, D4; logs 18, 19, 12).
The premise is the model's invariant on VRAM (log 6). -/
def Obligations.DrawFlipsCoveredCells : Prop :=
  Encodes 0xF000 0xD000 (fun op => .drw (opX op) (opY op) (opN op)) ∧
  (∀ x y n (s : State), Memory.vramWf s.vram = true → (n.toNat = 0 ∨ s.i.toNat + n.toNat - 1 < 4096) →
    ∃ t, exec (.drw x y n) s = .next t ∧
      (∀ px py, px < 64 → py < 32 →
        (spriteCovers s ((s.getV x).toNat % 64) ((s.getV y).toNat % 32) n.toNat px py →
          cell t px py = cell s px py ^^^ 0xFF) ∧
        (¬ spriteCovers s ((s.getV x).toNat % 64) ((s.getV y).toNat % 32) n.toNat px py →
          cell t px py = cell s px py)) ∧
      (t.getV VF = 0 ∨ t.getV VF = 1) ∧
      (t.getV VF = 1 ↔ ∃ px py, px < 64 ∧ py < 32 ∧
        spriteCovers s ((s.getV x).toNat % 64) ((s.getV y).toNat % 32) n.toNat px py ∧ cell s px py = 0xFF) ∧
      t.drawFlag = true ∧ Memory.vramWf t.vram = true ∧
      NextPc 2 s t ∧ Frame { regs := [VF], vram := true, drawFlag := true } s t) ∧
  (∀ x y n (s : State), 0 < n.toNat → 4096 ≤ s.i.toNat + n.toNat - 1 →
    exec (.drw x y n) s = .fault (.memoryOutOfBounds .read (max s.i.toNat 4096)))

/-- Source example S8 for every sprite and position (D16 to D18; logs 18 and 19): drawing the same sprite twice restores VRAM, and the
second draw reports a collision exactly when the first one lit a cell. x and y other than F keep the position the
same. -/
def Obligations.DrawTwiceRestores : Prop :=
  ∀ x y n (s t u w : State), Memory.vramWf s.vram = true → x ≠ VF → y ≠ VF →
    exec (.drw x y n) s = .next t → u.vram = t.vram → u.mem = s.mem → u.i = s.i → u.v = t.v →
    exec (.drw x y n) u = .next w →
      w.vram = s.vram ∧
      (w.getV VF = 1 ↔ ∃ px py, px < 64 ∧ py < 32 ∧
        spriteCovers s ((s.getV x).toNat % 64) ((s.getV y).toNat % 32) n.toNat px py ∧ cell s px py = 0x00)

/-! ### Timers and keys (45_timers_keys.md, 60_exceptions.md) -/

/-- The three timer moves, before the cycle's tick. Which of FX07, FX15 and FX18 is which is the spec's general knowledge
(GK3; log 22). That FX15 and FX18 leave DIVCNT (D37; log 15) and that FX18 records no sound event (D14; log 16) are its
choices. -/
def Obligations.TimerMoves : Prop :=
  Encodes 0xF0FF 0xF007 (fun op => .ldVxDt (opX op)) ∧ Encodes 0xF0FF 0xF015 (fun op => .ldDtVx (opX op)) ∧
  Encodes 0xF0FF 0xF018 (fun op => .ldStVx (opX op)) ∧
  (∀ x (s : State), ∃ t, exec (.ldVxDt x) s = .next t ∧ t.getV x = s.dt ∧ NextPc 2 s t ∧ Frame { regs := [x] } s t) ∧
  (∀ x (s : State), ∃ t, exec (.ldDtVx x) s = .next t ∧ t.dt = s.getV x ∧ NextPc 2 s t ∧ Frame { dt := true } s t) ∧
  (∀ x (s : State), ∃ t, exec (.ldStVx x) s = .next t ∧ t.st = s.getV x ∧ NextPc 2 s t ∧ Frame { st := true } s t)

/-- FX0A stores the lowest pressed key in 0..FX0A_LAST_KEY and advances; with none pressed the instruction changes nothing,
PC included. The lowest key, the parameter FX0A_LAST_KEY and detection by level are the spec's choices (D9, D10, D36;
logs 3 and 21). -/
def Obligations.WaitForKey : Prop :=
  Encodes 0xF0FF 0xF00A (fun op => .ldVxK (opX op)) ∧
  (∀ x (s : State) (k : Fin 16), k.val ≤ s.cfg.lastKey.toNat → s.keys[k.val] = true →
    (∀ j : Fin 16, j < k → s.keys[j.val] = false) →
    ∃ t, exec (.ldVxK x) s = .next t ∧ (t.getV x).toNat = k.val ∧ NextPc 2 s t ∧ Frame { regs := [x] } s t) ∧
  (∀ x (s : State), (∀ k : Fin 16, k.val ≤ s.cfg.lastKey.toNat → s.keys[k.val] = false) →
    exec (.ldVxK x) s = .next s)

/-- R247: a tick decrements both timers or neither, each only while non-zero and by exactly 1; a zero timer stays zero. -/
def Obligations.TimersDecrementTogether : Prop :=
  ∀ s : State,
    ((timerTick s).dt = s.dt ∧ (timerTick s).st = s.st) ∨
    ((0 < s.dt.toNat → (timerTick s).dt.toNat + 1 = s.dt.toNat) ∧ (s.dt.toNat = 0 → (timerTick s).dt.toNat = 0) ∧
      (0 < s.st.toNat → (timerTick s).st.toNat + 1 = s.st.toNat) ∧ (s.st.toNat = 0 → (timerTick s).st.toNat = 0))

/-- One tick. The divider counts modulo DIV = CLOCK_HZ div 60; on its wrap each non-zero timer goes down by exactly 1, and a
sound event is counted exactly when ST goes from 1 to 0. Nothing else changes. The floor, the divider's phase and the count
are the spec's choices (D13, D37, D14; logs 15 and 16). -/
def Obligations.TickCountsDown : Prop :=
  ∀ s : State,
    (timerTick s).divcnt = (s.divcnt + 1) % (s.cfg.clockHz / 60) ∧
    ((timerTick s).divcnt ≠ 0 →
      (timerTick s).dt = s.dt ∧ (timerTick s).st = s.st ∧ (timerTick s).soundEvents = s.soundEvents) ∧
    ((timerTick s).divcnt = 0 →
      (timerTick s).dt.toNat = s.dt.toNat - 1 ∧ (timerTick s).st.toNat = s.st.toNat - 1 ∧
      (timerTick s).soundEvents = s.soundEvents + (if s.st.toNat = 1 then 1 else 0)) ∧
    (timerTick s).pc = s.pc ∧ (timerTick s).v = s.v ∧ (timerTick s).i = s.i ∧ (timerTick s).mem = s.mem ∧
    (timerTick s).sp = s.sp ∧ (timerTick s).stack = s.stack ∧ (timerTick s).keys = s.keys ∧
    (timerTick s).vram = s.vram ∧ (timerTick s).drawFlag = s.drawFlag ∧ (timerTick s).draws = s.draws ∧
    (timerTick s).cfg = s.cfg

/-- k ticks in a row. The timers go down by the number of times the divider wrapped, never below 0, and at most one sound
event is counted (D14; log 16). With DIVCNT = 0 the wraps come at DIV, 2*DIV, 3*DIV ..., as the spec derives (D13, D37;
log 15). The premise is the model's invariant on DIVCNT. -/
def Obligations.TicksInARow : Prop :=
  ∀ (s : State) (k : Nat), s.divcnt < s.cfg.div →
    (timerTick^[k] s).divcnt = (s.divcnt + k) % s.cfg.div ∧
    (timerTick^[k] s).dt.toNat = s.dt.toNat - (s.divcnt + k) / s.cfg.div ∧
    (timerTick^[k] s).st.toNat = s.st.toNat - (s.divcnt + k) / s.cfg.div ∧
    (timerTick^[k] s).soundEvents =
      s.soundEvents + (if 0 < s.st.toNat ∧ s.st.toNat ≤ (s.divcnt + k) / s.cfg.div then 1 else 0)

/-- Over any run of k successful cycles, whatever they execute, DIVCNT advances by k modulo DIV (D37;
log 15). The premise is the model's invariant on DIVCNT. -/
def Obligations.DividerCountsCycles : Prop :=
  ∀ (s t : State) (k : Nat), s.divcnt < s.cfg.div → Host.Core.run Sys2Proof.core k s = .next t →
    t.divcnt = (s.divcnt + k) % s.cfg.div

/-- At a jump to itself, from then on every cycle succeeds and only the timer subsystem moves: case (b) of the spec's own
definition of the end of a run (D32; log 24). -/
def Obligations.SelfJumpOnlyTicks : Prop :=
  ∀ s : State, s.pc.toNat + 1 < 4096 →
    (Memory.read s.mem s.pc.toNat).toNat * 256 + (Memory.read s.mem (s.pc.toNat + 1)).toNat = 0x1000 + s.pc.toNat →
    ∀ k, Host.Core.run Sys2Proof.core k s = .next (timerTick^[k] s)

/-! ### Who writes what (10_state.md) -/

/-- In an instruction only these write I, DT, ST, VRAM, DRAW_FLAG, MEM and the stack, and none writes KEYS, DIVCNT,
SOUND_EVENTS or the configuration (10_state.md sections 3 to 7). The spec's choices among them: 00E0 leaves DRAW_FLAG
(D15; log 17), FX33, FX55 and FX65 leave I (D19; log 20), FX15 and FX18 leave DIVCNT (D37; log 15), FX18 records no sound
event (D14; log 16), only the host writes KEYS (D23; log 9). The clause on `draws` is about the model's own field (log 4),
and `cfg` is the model's own too (log 5). -/
def Obligations.OnlyTheNamedWriters : Prop :=
  ∀ (i : Instr) (s t : State), exec i s = .next t →
    (t.i ≠ s.i → ∃ nnn x, i ∈ [.ldI nnn, .addI x, .ldF x]) ∧
    (t.dt ≠ s.dt → ∃ x, i = .ldDtVx x) ∧
    (t.st ≠ s.st → ∃ x, i = .ldStVx x) ∧
    (t.vram ≠ s.vram → ∃ x y n, i ∈ [.cls, .drw x y n]) ∧
    (t.drawFlag ≠ s.drawFlag → t.drawFlag = true ∧ ∃ x y n, i = .drw x y n) ∧
    (t.mem ≠ s.mem → ∃ x, i ∈ [.ldB x, .stRegs x]) ∧
    (t.sp ≠ s.sp ∨ t.stack ≠ s.stack → ∃ nnn, i ∈ [.call nnn, .ret]) ∧
    (t.draws ≠ s.draws → ∃ x nn, i = .rnd x nn) ∧
    t.keys = s.keys ∧ t.divcnt = s.divcnt ∧ t.soundEvents = s.soundEvents ∧ t.cfg = s.cfg

/-! ### Reset and the invariants -/

/-- R41: after `new()`, under every configuration, every component is zero. -/
def Obligations.NewIsZero : Prop :=
  ∀ cfg : Config, ∀ s : State, s = hostNew cfg →
    (∀ a, Memory.read s.mem a = 0) ∧ (∀ r, s.getV r = 0) ∧ s.i.toNat = 0 ∧ s.pc.toNat = 0 ∧ s.sp.val = 0 ∧
    (∀ k : Fin 16, s.stack[k.val].toNat = 0) ∧ s.dt.toNat = 0 ∧ s.st.toNat = 0 ∧ s.divcnt = 0 ∧
    (∀ k : Fin 16, s.keys[k.val] = false) ∧ (∀ k, Memory.read s.vram k = 0) ∧ s.drawFlag = false ∧
    s.soundEvents = 0

/-- The reset state meets both invariants. -/
def Obligations.ResetMeetsTheInvariants : Prop :=
  State.wf State.reset = true ∧ State.pcBounded State.reset

/-- Every step keeps MEM and VRAM canonical (log 6), VRAM two-valued, as the spec derives, and DIVCNT below DIV (D37; log
15). -/
def Obligations.StepKeepsWellFormed : Prop :=
  ∀ s t : State, State.wf s = true → step s = .next t → State.wf t = true

/-- Every sequence of host operations keeps them, from every state that meets them (log 9). -/
def Obligations.HostCallsKeepWellFormed : Prop :=
  ∀ (ops : List HostOp) (s : State), State.wf s = true → State.wf (runHost ops s) = true

/-- The bounds that the spec derives (D7; logs 12 and 20): an instruction executes only at PC <= 4094, every step leaves PC at most 0x10FE and keeps every return address in
use at most 0x1000; so does every sequence of host operations. -/
def Obligations.PcStaysBounded : Prop :=
  (∀ s t : State, State.pcBounded s → step s = .next t → s.pc.toNat ≤ 4094 ∧ State.pcBounded t) ∧
  (∀ (ops : List HostOp) (s : State), State.pcBounded s → State.pcBounded (runHost ops s))

/-- No step changes KEYS (D23) or the configuration, and no sequence of host operations changes the configuration (logs 5
and 9). -/
def Obligations.StepsKeepKeysAndConfiguration : Prop :=
  (∀ s t : State, step s = .next t → t.keys = s.keys ∧ t.cfg = s.cfg) ∧
  (∀ (ops : List HostOp) (s : State), (runHost ops s).cfg = s.cfg)

/-! ### The host boundary (60_exceptions.md, 70_reset_and_hazards.md) -/

/-- A configuration is refused exactly when it is bad: a clock below 60 Hz (the spec's constraint D13, U8; log 15), a last key
other than 14 or 15 (the range of its parameter, D10; log 3), or a fontset of another length than 80 (its open parameter,
D11; log 2). An accepted one is as the host gave it, and DIV >= 1. -/
def Obligations.ConfigurationIsChecked : Prop :=
  ∀ p : HostParams,
    (hostConfigure p = none ↔ p.clockHz < 60 ∨ (p.fx0aLastKey ≠ 14 ∧ p.fx0aLastKey ≠ 15) ∨ p.fontset.length ≠ 80) ∧
    (∀ c, hostConfigure p = some c →
      c.clockHz = p.clockHz ∧ c.lastKey.toNat = p.fx0aLastKey ∧ c.fontset.toList = p.fontset ∧ 1 ≤ c.div)

/-- `initialize()` sets PC to 0x200 and the 80 fontset bytes, changes nothing else, and a second call changes nothing more:
the spec's choice (D26; log 9). The premise is the model's invariant that MEM is canonical (log 6). -/
def Obligations.InitializeSetsPcAndFont : Prop :=
  ∀ s : State, Memory.wf s.mem = true →
    (hostInitialize s).pc.toNat = 0x200 ∧
    (∀ k : Fin 80, Memory.read (hostInitialize s).mem (0x50 + k.val) = s.cfg.fontset[k.val]) ∧
    Frame { bytes := List.range' 0x50 80 } s (hostInitialize s) ∧
    hostInitialize (hostInitialize s) = hostInitialize s

/-- R277, R235: a successful `load_rom` of N bytes puts them at 0x200.., and a ROM of more than 3584 bytes is RomTooLarge and
leaves memory unchanged (the host's call returns the state it was given). The premise is the model's invariant that MEM
is canonical. -/
def Obligations.LoadRomRoundTrip : Prop :=
  ∀ (bytes : List Byte) (s : State), Memory.wf s.mem = true →
    (∀ t, hostLoadRom bytes s = .ok t → ∀ (k : Nat) (h : k < bytes.length), Memory.read t.mem (0x200 + k) = bytes[k]) ∧
    (3584 < bytes.length → hostCall (.loadRom bytes) s = (s, .loadFailed .romTooLarge))

/-- A ROM of up to 3584 bytes loads, and nothing but its bytes of MEM changes, PC included: the spec's choice (D25; log
9). -/
def Obligations.LoadRomChangesOnlyTheRom : Prop :=
  ∀ (bytes : List Byte) (s : State), bytes.length ≤ 3584 →
    ∃ t, hostLoadRom bytes s = .ok t ∧ t.pc = s.pc ∧ Frame { bytes := List.range' 0x200 bytes.length } s t

/-- `initialize` and `load_rom` in either order give the same state, as the spec derives (D25, D26; log 9). -/
def Obligations.InitializeAndLoadCommute : Prop :=
  ∀ (bytes : List Byte) (s t u : State), Memory.wf s.mem = true →
    hostLoadRom bytes s = .ok t → hostLoadRom bytes (hostInitialize s) = .ok u → hostInitialize t = u

/-- Without `initialize()` the first cycle of a fresh state raises UnknownOpcode(0x0000), whatever ROM is loaded, as the spec
derives (log 7). -/
def Obligations.CycleBeforeInitialize : Prop :=
  ∀ (cfg : Config) (bytes : List Byte) (s : State),
    (s = hostNew cfg ∨ hostLoadRom bytes (hostNew cfg) = .ok s) →
    hostExecuteCycle s = (s, .cycleError (.unknownOpcode 0x0000))

/-- After the boot sequence (70_reset_and_hazards.md sections 1 and 3; log 7) the first instruction fetched is the ROM's first word. -/
def Obligations.BootFetchesTheRom : Prop :=
  ∀ (cfg : Config) (hi lo : Byte) (rest : List Byte) (s : State),
    hostLoadRom (hi :: lo :: rest) (hostInitialize (hostNew cfg)) = .ok s →
      ∃ op, fetchWord s = .ok op ∧ op.toNat = hi.toNat * 256 + lo.toNat

/-- The keypad, the VRAM snapshot in index order, the draw flag and the sound events: the spec's own accessors (D16, D23,
D41, D14; logs 9, 16 and 18). -/
def Obligations.HostAccessors : Prop :=
  ∀ s : State,
    (∀ k, (hostSetKeys k s).keys = k ∧ (hostSetKeys k s).pc = s.pc ∧ Frame {} { s with keys := k } (hostSetKeys k s)) ∧
    (hostReadVram s).length = 2048 ∧
    (∀ (k : Nat) (h : k < (hostReadVram s).length), (hostReadVram s)[k] = cell s (k % 64) (k / 64)) ∧
    hostReadDrawFlag s = s.drawFlag ∧ (hostClearDrawFlag s).drawFlag = false ∧ (hostClearDrawFlag s).pc = s.pc ∧
    Frame { drawFlag := true } s (hostClearDrawFlag s) ∧
    (hostTakeSoundEvents s).1 = s.soundEvents ∧ (hostTakeSoundEvents s).2.soundEvents = 0 ∧
    (hostTakeSoundEvents s).2.pc = s.pc ∧
    Frame {} { s with soundEvents := 0 } (hostTakeSoundEvents s).2
end

