-- ==== Sys2Proof/Laws/Decode.lean ====
section
/-!
SUPPORT. Words and their fields as numbers: a packed word is the sum of its fields, each field is a quotient and a
remainder, and so each field of a packed word is the one it was packed from.
-/

namespace Sys2Proof

theorem toNat_append_add {v w : Nat} (a : BitVec v) (b : BitVec w) :
    (a ++ b).toNat = a.toNat * 2 ^ w + b.toNat := by
  rw [BitVec.toNat_append, ← Nat.shiftLeft_add_eq_or_of_lt b.isLt, Nat.shiftLeft_eq]

theorem toNat_packNNN (t : BitVec 4) (a : BitVec 12) :
    (packNNN t a).toNat = t.toNat * 4096 + a.toNat :=
  toNat_append_add t a

theorem toNat_packXNN (t : BitVec 4) (x : Reg) (nn : Byte) :
    (packXNN t x nn).toNat = t.toNat * 4096 + x.val * 256 + nn.toNat := by
  have h1 := toNat_append_add (t ++ BitVec.ofFin (w := 4) x) nn
  have h2 := toNat_append_add t (BitVec.ofFin (w := 4) x)
  have h3 : (BitVec.ofFin (w := 4) x).toNat = x.val := rfl
  have h4 : (packXNN t x nn).toNat = ((t ++ BitVec.ofFin (w := 4) x) ++ nn).toNat := rfl
  omega

theorem toNat_packXYN (t : BitVec 4) (x y : Reg) (n : BitVec 4) :
    (packXYN t x y n).toNat = t.toNat * 4096 + x.val * 256 + y.val * 16 + n.toNat := by
  have h1 := toNat_append_add ((t ++ BitVec.ofFin (w := 4) x) ++ BitVec.ofFin (w := 4) y) n
  have h2 := toNat_append_add (t ++ BitVec.ofFin (w := 4) x) (BitVec.ofFin (w := 4) y)
  have h3 := toNat_append_add t (BitVec.ofFin (w := 4) x)
  have h4 : (BitVec.ofFin (w := 4) x).toNat = x.val := rfl
  have h5 : (BitVec.ofFin (w := 4) y).toNat = y.val := rfl
  have h6 : (packXYN t x y n).toNat =
    (((t ++ BitVec.ofFin (w := 4) x) ++ BitVec.ofFin (w := 4) y) ++ n).toNat := rfl
  omega

/-! ### Each field as a number (R6, R71) -/

theorem toNat_opTop (op : Word) : (opTop op).toNat = op.toNat / 4096 := by
  have := op.isLt
  simp only [opTop, BitVec.extractLsb'_toNat, Nat.shiftRight_eq_div_pow]
  omega

theorem val_opX (op : Word) : (opX op).val = op.toNat / 256 % 16 := by
  show (op.extractLsb' 8 4).toNat = _
  simp only [BitVec.extractLsb'_toNat, Nat.shiftRight_eq_div_pow]

theorem val_opY (op : Word) : (opY op).val = op.toNat / 16 % 16 := by
  show (op.extractLsb' 4 4).toNat = _
  simp only [BitVec.extractLsb'_toNat, Nat.shiftRight_eq_div_pow]

theorem toNat_opN (op : Word) : (opN op).toNat = op.toNat % 16 := by
  simp [opN, BitVec.extractLsb'_toNat]

theorem toNat_opNN (op : Word) : (opNN op).toNat = op.toNat % 256 := by
  simp [opNN, BitVec.extractLsb'_toNat]

theorem toNat_opNNN (op : Word) : (opNNN op).toNat = op.toNat % 4096 := by
  simp [opNNN, BitVec.extractLsb'_toNat]

/-- A fetched word is its high byte times 256 plus its low byte (R55). -/
theorem toNat_wordOfBytes (hi lo : Byte) : (wordOfBytes hi lo).toNat = hi.toNat * 256 + lo.toNat :=
  toNat_append_add hi lo

/-- The two bytes of a word make the word. -/
@[simp] theorem wordOfBytes_bytesOfWord (op : Word) :
    wordOfBytes (bytesOfWord op).1 (bytesOfWord op).2 = op := by
  apply BitVec.eq_of_toNat_eq
  have := op.isLt
  rw [toNat_wordOfBytes]
  simp only [bytesOfWord, BitVec.extractLsb'_toNat, Nat.shiftRight_eq_div_pow]
  omega

theorem ofFin_opX (op : Word) : BitVec.ofFin (w := 4) (opX op) = op.extractLsb' 8 4 := rfl

theorem ofFin_opY (op : Word) : BitVec.ofFin (w := 4) (opY op) = op.extractLsb' 4 4 := rfl

/-! ### Masked words (R84) -/

theorem and_F000 (op : Word) : (op &&& 0xF000).toNat = op.toNat / 4096 * 4096 := by
  have h : op &&& 0xF000 = packNNN (opTop op) 0 := by
    apply BitVec.eq_of_getLsbD_eq
    intro i hi
    simp only [packNNN, opTop]
    rw [BitVec.getLsbD_append]
    interval_cases i <;> simp
  rw [h, toNat_packNNN, toNat_opTop]; simp

theorem and_F0FF (op : Word) : (op &&& 0xF0FF).toNat = op.toNat / 4096 * 4096 + op.toNat % 256 := by
  have h : op &&& 0xF0FF = packXNN (opTop op) 0 (opNN op) := by
    apply BitVec.eq_of_getLsbD_eq
    intro i hi
    simp only [packXNN, opTop, opNN]
    rw [BitVec.getLsbD_append, BitVec.getLsbD_append]
    interval_cases i <;> simp
  rw [h, toNat_packXNN, toNat_opTop, toNat_opNN]; simp

theorem and_F00F (op : Word) : (op &&& 0xF00F).toNat = op.toNat / 4096 * 4096 + op.toNat % 16 := by
  have h : op &&& 0xF00F = packXYN (opTop op) 0 0 (opN op) := by
    apply BitVec.eq_of_getLsbD_eq
    intro i hi
    simp only [packXYN, opTop, opN]
    rw [BitVec.getLsbD_append, BitVec.getLsbD_append, BitVec.getLsbD_append]
    interval_cases i <;> simp
  rw [h, toNat_packXYN, toNat_opTop, toNat_opN]; simp

theorem and_FFF0 (op : Word) : (op &&& 0xFFF0).toNat = op.toNat / 16 * 16 := by
  have h : op &&& 0xFFF0 = packXYN (opTop op) (opX op) (opY op) 0 := by
    apply BitVec.eq_of_getLsbD_eq
    intro i hi
    simp only [packXYN, opTop, ofFin_opX, ofFin_opY]
    rw [BitVec.getLsbD_append, BitVec.getLsbD_append, BitVec.getLsbD_append]
    interval_cases i <;> simp
  rw [h, toNat_packXYN, toNat_opTop, val_opX, val_opY]; simp; omega

theorem and_FF0F (op : Word) : (op &&& 0xFF0F).toNat = op.toNat / 256 * 256 + op.toNat % 16 := by
  have h : op &&& 0xFF0F = packXYN (opTop op) (opX op) 0 (opN op) := by
    apply BitVec.eq_of_getLsbD_eq
    intro i hi
    simp only [packXYN, opTop, ofFin_opX, opN]
    rw [BitVec.getLsbD_append, BitVec.getLsbD_append, BitVec.getLsbD_append]
    interval_cases i <;> simp
  rw [h, toNat_packXYN, toNat_opTop, val_opX, toNat_opN]; simp; omega

theorem and_not_none (op : Word) : (op &&& ~~~(0 : Word)).toNat = op.toNat := by
  show (op &&& BitVec.allOnes 16).toNat = _
  rw [BitVec.and_allOnes]

theorem and_not_0F00 (op : Word) :
    (op &&& ~~~(0x0F00 : Word)).toNat = op.toNat / 4096 * 4096 + op.toNat % 256 := and_F0FF op

theorem and_not_000F (op : Word) : (op &&& ~~~(0x000F : Word)).toNat = op.toNat / 16 * 16 := and_FFF0 op

theorem and_not_00F0 (op : Word) :
    (op &&& ~~~(0x00F0 : Word)).toNat = op.toNat / 256 * 256 + op.toNat % 16 := and_FF0F op

/-! ### The fields of a packed word -/

@[simp] theorem opTop_packNNN (t : BitVec 4) (a : BitVec 12) : opTop (packNNN t a) = t := by
  apply BitVec.eq_of_toNat_eq
  have := a.isLt
  rw [toNat_opTop, toNat_packNNN]; omega

@[simp] theorem opNNN_packNNN (t : BitVec 4) (a : BitVec 12) : opNNN (packNNN t a) = a := by
  apply BitVec.eq_of_toNat_eq
  have := a.isLt
  rw [toNat_opNNN, toNat_packNNN]; omega

@[simp] theorem opTop_packXNN (t : BitVec 4) (x : Reg) (nn : Byte) : opTop (packXNN t x nn) = t := by
  apply BitVec.eq_of_toNat_eq
  have := nn.isLt
  have := x.isLt
  rw [toNat_opTop, toNat_packXNN]; omega

@[simp] theorem opX_packXNN (t : BitVec 4) (x : Reg) (nn : Byte) : opX (packXNN t x nn) = x := by
  apply Fin.ext
  have := nn.isLt
  have := x.isLt
  rw [val_opX, toNat_packXNN]; omega

@[simp] theorem opNN_packXNN (t : BitVec 4) (x : Reg) (nn : Byte) : opNN (packXNN t x nn) = nn := by
  apply BitVec.eq_of_toNat_eq
  have := nn.isLt
  rw [toNat_opNN, toNat_packXNN]; omega

@[simp] theorem opTop_packXYN (t : BitVec 4) (x y : Reg) (n : BitVec 4) : opTop (packXYN t x y n) = t := by
  apply BitVec.eq_of_toNat_eq
  have := n.isLt
  have := x.isLt
  have := y.isLt
  rw [toNat_opTop, toNat_packXYN]; omega

@[simp] theorem opX_packXYN (t : BitVec 4) (x y : Reg) (n : BitVec 4) : opX (packXYN t x y n) = x := by
  apply Fin.ext
  have := n.isLt
  have := x.isLt
  have := y.isLt
  rw [val_opX, toNat_packXYN]; omega

@[simp] theorem opY_packXYN (t : BitVec 4) (x y : Reg) (n : BitVec 4) : opY (packXYN t x y n) = y := by
  apply Fin.ext
  have := n.isLt
  have := y.isLt
  rw [val_opY, toNat_packXYN]; omega

@[simp] theorem opN_packXYN (t : BitVec 4) (x y : Reg) (n : BitVec 4) : opN (packXYN t x y n) = n := by
  apply BitVec.eq_of_toNat_eq
  have := n.isLt
  rw [toNat_opN, toNat_packXYN]; omega

/-! ### What each word decodes to, by its top nibble and its low nibble or byte (R74 to R79) -/

/-- The 0 family's selector is the low byte: the 8 bits op[7:0] (R75). -/
theorem decode0_eq (op : Word) :
    decode0 op =
      match (op.extractLsb' 0 8 : BitVec 8).toNat with
      | 0xE0 => .ok .cls
      | 0xEE => .ok .ret
      | _ => .error ⟨op⟩ := rfl

theorem decode_cls {op : Word} (h : op.toNat / 4096 = 0x0) (h' : op.toNat % 256 = 0xE0) :
    decode op = .ok .cls := by
  unfold decode; rw [toNat_opTop, h]; show decode0 op = _; unfold decode0; rw [toNat_opNN, h']; rfl

theorem decode_ret {op : Word} (h : op.toNat / 4096 = 0x0) (h' : op.toNat % 256 = 0xEE) :
    decode op = .ok .ret := by
  unfold decode; rw [toNat_opTop, h]; show decode0 op = _; unfold decode0; rw [toNat_opNN, h']; rfl

theorem decode_jp {op : Word} (h : op.toNat / 4096 = 0x1) : decode op = .ok (.jp (opNNN op)) := by
  unfold decode; rw [toNat_opTop, h]; rfl

theorem decode_call {op : Word} (h : op.toNat / 4096 = 0x2) : decode op = .ok (.call (opNNN op)) := by
  unfold decode; rw [toNat_opTop, h]; rfl

theorem decode_seImm {op : Word} (h : op.toNat / 4096 = 0x3) : decode op = .ok (.seImm (opX op) (opNN op)) := by
  unfold decode; rw [toNat_opTop, h]; rfl

theorem decode_sneImm {op : Word} (h : op.toNat / 4096 = 0x4) : decode op = .ok (.sneImm (opX op) (opNN op)) := by
  unfold decode; rw [toNat_opTop, h]; rfl

theorem decode_seReg {op : Word} (h : op.toNat / 4096 = 0x5) : decode op = .ok (.seReg (opX op) (opY op)) := by
  unfold decode; rw [toNat_opTop, h]; rfl

theorem decode_ldImm {op : Word} (h : op.toNat / 4096 = 0x6) : decode op = .ok (.ldImm (opX op) (opNN op)) := by
  unfold decode; rw [toNat_opTop, h]; rfl

theorem decode_addImm {op : Word} (h : op.toNat / 4096 = 0x7) : decode op = .ok (.addImm (opX op) (opNN op)) := by
  unfold decode; rw [toNat_opTop, h]; rfl

theorem decode_ldReg {op : Word} (h : op.toNat / 4096 = 0x8) (h' : op.toNat % 16 = 0x0) :
    decode op = .ok (.ldReg (opX op) (opY op)) := by
  unfold decode; rw [toNat_opTop, h]; show decode8 op = _; unfold decode8; rw [toNat_opN, h']; rfl

theorem decode_orReg {op : Word} (h : op.toNat / 4096 = 0x8) (h' : op.toNat % 16 = 0x1) :
    decode op = .ok (.orReg (opX op) (opY op)) := by
  unfold decode; rw [toNat_opTop, h]; show decode8 op = _; unfold decode8; rw [toNat_opN, h']; rfl

theorem decode_andReg {op : Word} (h : op.toNat / 4096 = 0x8) (h' : op.toNat % 16 = 0x2) :
    decode op = .ok (.andReg (opX op) (opY op)) := by
  unfold decode; rw [toNat_opTop, h]; show decode8 op = _; unfold decode8; rw [toNat_opN, h']; rfl

theorem decode_xorReg {op : Word} (h : op.toNat / 4096 = 0x8) (h' : op.toNat % 16 = 0x3) :
    decode op = .ok (.xorReg (opX op) (opY op)) := by
  unfold decode; rw [toNat_opTop, h]; show decode8 op = _; unfold decode8; rw [toNat_opN, h']; rfl

theorem decode_addReg {op : Word} (h : op.toNat / 4096 = 0x8) (h' : op.toNat % 16 = 0x4) :
    decode op = .ok (.addReg (opX op) (opY op)) := by
  unfold decode; rw [toNat_opTop, h]; show decode8 op = _; unfold decode8; rw [toNat_opN, h']; rfl

theorem decode_sub {op : Word} (h : op.toNat / 4096 = 0x8) (h' : op.toNat % 16 = 0x5) :
    decode op = .ok (.sub (opX op) (opY op)) := by
  unfold decode; rw [toNat_opTop, h]; show decode8 op = _; unfold decode8; rw [toNat_opN, h']; rfl

theorem decode_shr {op : Word} (h : op.toNat / 4096 = 0x8) (h' : op.toNat % 16 = 0x6) :
    decode op = .ok (.shr (opX op)) := by
  unfold decode; rw [toNat_opTop, h]; show decode8 op = _; unfold decode8; rw [toNat_opN, h']; rfl

theorem decode_subn {op : Word} (h : op.toNat / 4096 = 0x8) (h' : op.toNat % 16 = 0x7) :
    decode op = .ok (.subn (opX op) (opY op)) := by
  unfold decode; rw [toNat_opTop, h]; show decode8 op = _; unfold decode8; rw [toNat_opN, h']; rfl

theorem decode_shl {op : Word} (h : op.toNat / 4096 = 0x8) (h' : op.toNat % 16 = 0xE) :
    decode op = .ok (.shl (opX op)) := by
  unfold decode; rw [toNat_opTop, h]; show decode8 op = _; unfold decode8; rw [toNat_opN, h']; rfl

theorem decode_sneReg {op : Word} (h : op.toNat / 4096 = 0x9) : decode op = .ok (.sneReg (opX op) (opY op)) := by
  unfold decode; rw [toNat_opTop, h]; rfl

theorem decode_ldI {op : Word} (h : op.toNat / 4096 = 0xA) : decode op = .ok (.ldI (opNNN op)) := by
  unfold decode; rw [toNat_opTop, h]; rfl

theorem decode_jpV0 {op : Word} (h : op.toNat / 4096 = 0xB) : decode op = .ok (.jpV0 (opNNN op)) := by
  unfold decode; rw [toNat_opTop, h]; rfl

theorem decode_rnd {op : Word} (h : op.toNat / 4096 = 0xC) : decode op = .ok (.rnd (opX op) (opNN op)) := by
  unfold decode; rw [toNat_opTop, h]; rfl

theorem decode_drw {op : Word} (h : op.toNat / 4096 = 0xD) : decode op = .ok (.drw (opX op) (opY op) (opN op)) := by
  unfold decode; rw [toNat_opTop, h]; rfl

theorem decode_skp {op : Word} (h : op.toNat / 4096 = 0xE) (h' : op.toNat % 256 = 0x9E) :
    decode op = .ok (.skp (opX op)) := by
  unfold decode; rw [toNat_opTop, h]; show decodeE op = _; unfold decodeE; rw [toNat_opNN, h']; rfl

theorem decode_sknp {op : Word} (h : op.toNat / 4096 = 0xE) (h' : op.toNat % 256 = 0xA1) :
    decode op = .ok (.sknp (opX op)) := by
  unfold decode; rw [toNat_opTop, h]; show decodeE op = _; unfold decodeE; rw [toNat_opNN, h']; rfl

theorem decode_ldVxDt {op : Word} (h : op.toNat / 4096 = 0xF) (h' : op.toNat % 256 = 0x07) :
    decode op = .ok (.ldVxDt (opX op)) := by
  unfold decode; rw [toNat_opTop, h]; show decodeF op = _; unfold decodeF; rw [toNat_opNN, h']; rfl

theorem decode_ldVxK {op : Word} (h : op.toNat / 4096 = 0xF) (h' : op.toNat % 256 = 0x0A) :
    decode op = .ok (.ldVxK (opX op)) := by
  unfold decode; rw [toNat_opTop, h]; show decodeF op = _; unfold decodeF; rw [toNat_opNN, h']; rfl

theorem decode_ldDtVx {op : Word} (h : op.toNat / 4096 = 0xF) (h' : op.toNat % 256 = 0x15) :
    decode op = .ok (.ldDtVx (opX op)) := by
  unfold decode; rw [toNat_opTop, h]; show decodeF op = _; unfold decodeF; rw [toNat_opNN, h']; rfl

theorem decode_ldStVx {op : Word} (h : op.toNat / 4096 = 0xF) (h' : op.toNat % 256 = 0x18) :
    decode op = .ok (.ldStVx (opX op)) := by
  unfold decode; rw [toNat_opTop, h]; show decodeF op = _; unfold decodeF; rw [toNat_opNN, h']; rfl

theorem decode_addI {op : Word} (h : op.toNat / 4096 = 0xF) (h' : op.toNat % 256 = 0x1E) :
    decode op = .ok (.addI (opX op)) := by
  unfold decode; rw [toNat_opTop, h]; show decodeF op = _; unfold decodeF; rw [toNat_opNN, h']; rfl

theorem decode_ldF {op : Word} (h : op.toNat / 4096 = 0xF) (h' : op.toNat % 256 = 0x29) :
    decode op = .ok (.ldF (opX op)) := by
  unfold decode; rw [toNat_opTop, h]; show decodeF op = _; unfold decodeF; rw [toNat_opNN, h']; rfl

theorem decode_ldB {op : Word} (h : op.toNat / 4096 = 0xF) (h' : op.toNat % 256 = 0x33) :
    decode op = .ok (.ldB (opX op)) := by
  unfold decode; rw [toNat_opTop, h]; show decodeF op = _; unfold decodeF; rw [toNat_opNN, h']; rfl

theorem decode_stRegs {op : Word} (h : op.toNat / 4096 = 0xF) (h' : op.toNat % 256 = 0x55) :
    decode op = .ok (.stRegs (opX op)) := by
  unfold decode; rw [toNat_opTop, h]; show decodeF op = _; unfold decodeF; rw [toNat_opNN, h']; rfl

theorem decode_ldRegs {op : Word} (h : op.toNat / 4096 = 0xF) (h' : op.toNat % 256 = 0x65) :
    decode op = .ok (.ldRegs (opX op)) := by
  unfold decode; rw [toNat_opTop, h]; show decodeF op = _; unfold decodeF; rw [toNat_opNN, h']; rfl

theorem decode0_illegal {op : Word} (h : op.toNat / 4096 = 0x0) (h' : op.toNat % 256 ∉ [0xE0, 0xEE]) :
    decode op = .error ⟨op⟩ := by
  unfold decode; rw [toNat_opTop, h]; show decode0 op = _; unfold decode0; rw [toNat_opNN]
  split <;> first | rfl | (rename_i he; exact absurd (by rw [he]; decide) h')

theorem decode8_illegal {op : Word} (h : op.toNat / 4096 = 0x8) (h' : op.toNat % 16 ∉ [0x0, 0x1, 0x2, 0x3, 0x4, 0x5, 0x6, 0x7, 0xE]) :
    decode op = .error ⟨op⟩ := by
  unfold decode; rw [toNat_opTop, h]; show decode8 op = _; unfold decode8; rw [toNat_opN]
  split <;> first | rfl | (rename_i he; exact absurd (by rw [he]; decide) h')

theorem decodeE_illegal {op : Word} (h : op.toNat / 4096 = 0xE) (h' : op.toNat % 256 ∉ [0x9E, 0xA1]) :
    decode op = .error ⟨op⟩ := by
  unfold decode; rw [toNat_opTop, h]; show decodeE op = _; unfold decodeE; rw [toNat_opNN]
  split <;> first | rfl | (rename_i he; exact absurd (by rw [he]; decide) h')

theorem decodeF_illegal {op : Word} (h : op.toNat / 4096 = 0xF) (h' : op.toNat % 256 ∉ [0x07, 0x0A, 0x15, 0x18, 0x1E, 0x29, 0x33, 0x55, 0x65]) :
    decode op = .error ⟨op⟩ := by
  unfold decode; rw [toNat_opTop, h]; show decodeF op = _; unfold decodeF; rw [toNat_opNN]
  split <;> first | rfl | (rename_i he; exact absurd (by rw [he]; decide) h')

end Sys2Proof
end

