-- ==== Sys2Proof/Laws/Memory.lean ====
section
/-!
SUPPORT. The laws of memory cells: a read after a write, the canonical form and what keeps it, blocks, and that two
canonical memories with the same bytes are equal data.
-/

namespace Sys2Proof.Machine

/-! ### One write -/

theorem Memory.read_consCell_other {a a' : Nat} (h : a ≠ a') (v : Byte) (m : Memory) :
    Memory.read (Memory.consCell a v m) a' = Memory.read m a' := by
  unfold Memory.consCell
  split
  · rfl
  · simp [Memory.read, Ne.symm h]

/-- A write changes only the addressed byte, in every memory (R61). -/
theorem Memory.read_write_other {a a' : Nat} (h : a ≠ a') (m : Memory) (v : Byte) :
    Memory.read (Memory.write m a v) a' = Memory.read m a' := by
  induction m with
  | nil => exact Memory.read_consCell_other h v []
  | cons c m ih =>
    obtain ⟨b, w⟩ := c
    simp only [Memory.write]
    split
    · exact Memory.read_consCell_other h v _
    · split
      · rename_i hab
        rw [Memory.read_consCell_other h]
        simp [Memory.read, Ne.symm (hab ▸ h)]
      · simp only [Memory.read, ih]

/-! ### The canonical form -/

theorem Memory.wfFrom_cons {limit lo a : Nat} {v : Byte} {m : Memory} :
    Memory.wfFrom limit lo ((a, v) :: m) = true ↔
      lo ≤ a ∧ a < limit ∧ v ≠ 0 ∧ Memory.wfFrom limit (a + 1) m = true := by
  simp [Memory.wfFrom, and_assoc]

theorem Memory.wfFrom_mono {limit lo lo' : Nat} {m : Memory} (h : lo' ≤ lo)
    (hm : Memory.wfFrom limit lo m = true) : Memory.wfFrom limit lo' m = true := by
  cases m with
  | nil => rfl
  | cons c m =>
    obtain ⟨a, v⟩ := c
    rw [Memory.wfFrom_cons] at hm ⊢
    exact ⟨h.trans hm.1, hm.2⟩

theorem Memory.read_below {limit lo a : Nat} {m : Memory} (hm : Memory.wfFrom limit lo m = true)
    (h : a < lo) : Memory.read m a = 0 := by
  induction m generalizing lo with
  | nil => rfl
  | cons c m ih =>
    obtain ⟨b, w⟩ := c
    rw [Memory.wfFrom_cons] at hm
    have : a ≠ b := by omega
    simp only [Memory.read, if_neg this]
    exact ih hm.2.2.2 (by omega)

theorem Memory.read_beyond {limit lo a : Nat} {m : Memory} (hm : Memory.wfFrom limit lo m = true)
    (h : limit ≤ a) : Memory.read m a = 0 := by
  induction m generalizing lo with
  | nil => rfl
  | cons c m ih =>
    obtain ⟨b, w⟩ := c
    rw [Memory.wfFrom_cons] at hm
    have : a ≠ b := by omega
    simp only [Memory.read, if_neg this]
    exact ih hm.2.2.2

theorem Memory.read_consCell_same {limit a : Nat} {v : Byte} {m : Memory}
    (hm : Memory.wfFrom limit (a + 1) m = true) : Memory.read (Memory.consCell a v m) a = v := by
  unfold Memory.consCell
  split
  · rename_i hv
    rw [hv]
    exact Memory.read_below hm (Nat.lt_succ_self a)
  · simp [Memory.read]

/-- A read after a write to the same place gives the value written, in a canonical memory. -/
theorem Memory.read_write_same {limit lo a : Nat} {v : Byte} {m : Memory}
    (hm : Memory.wfFrom limit lo m = true) : Memory.read (Memory.write m a v) a = v := by
  induction m generalizing lo with
  | nil => exact Memory.read_consCell_same (limit := a + 2) rfl
  | cons c m ih =>
    obtain ⟨b, w⟩ := c
    have hc := Memory.wfFrom_cons.mp hm
    simp only [Memory.write]
    split
    · rename_i hab
      exact Memory.read_consCell_same (limit := limit)
        (Memory.wfFrom_cons.mpr ⟨hab, hc.2.1, hc.2.2.1, hc.2.2.2⟩)
    · split
      · rename_i hab
        exact Memory.read_consCell_same (limit := limit) (hab ▸ hc.2.2.2)
      · rename_i h1 h2
        simp only [Memory.read, if_neg h2]
        exact ih hc.2.2.2

theorem Memory.consCell_wf {limit lo a : Nat} {v : Byte} {m : Memory} (h1 : lo ≤ a) (h2 : a < limit)
    (hm : Memory.wfFrom limit (a + 1) m = true) :
    Memory.wfFrom limit lo (Memory.consCell a v m) = true := by
  unfold Memory.consCell
  split
  · exact Memory.wfFrom_mono (by omega) hm
  · exact Memory.wfFrom_cons.mpr ⟨h1, h2, by assumption, hm⟩

/-- A write below the limit keeps the canonical form. -/
theorem Memory.write_wfFrom {limit lo a : Nat} {v : Byte} {m : Memory}
    (hm : Memory.wfFrom limit lo m = true) (h1 : lo ≤ a) (h2 : a < limit) :
    Memory.wfFrom limit lo (Memory.write m a v) = true := by
  induction m generalizing lo with
  | nil => exact Memory.consCell_wf h1 h2 rfl
  | cons c m ih =>
    obtain ⟨b, w⟩ := c
    have hc := Memory.wfFrom_cons.mp hm
    simp only [Memory.write]
    split
    · rename_i hab
      exact Memory.consCell_wf h1 h2 (Memory.wfFrom_cons.mpr ⟨hab, hc.2.1, hc.2.2.1, hc.2.2.2⟩)
    · split
      · rename_i hab
        exact Memory.consCell_wf h1 h2 (hab ▸ hc.2.2.2)
      · exact Memory.wfFrom_cons.mpr ⟨hc.1, hc.2.1, hc.2.2.1, ih hc.2.2.2 (by omega)⟩

theorem Memory.write_wf {a : Nat} {v : Byte} {m : Memory} (hm : Memory.wf m = true) (h : a < 4096) :
    Memory.wf (Memory.write m a v) = true :=
  Memory.write_wfFrom hm (Nat.zero_le a) h

/-- Equal bytes, equal data: a canonical memory is determined by what it reads as. -/
theorem Memory.eq_of_read_eq {limit lo : Nat} {m m' : Memory} (hm : Memory.wfFrom limit lo m = true)
    (hm' : Memory.wfFrom limit lo m' = true) (h : ∀ a, Memory.read m a = Memory.read m' a) : m = m' := by
  induction m generalizing lo m' with
  | nil =>
    cases m' with
    | nil => rfl
    | cons c m' =>
      obtain ⟨b, w⟩ := c
      have hc := Memory.wfFrom_cons.mp hm'
      have := h b
      simp only [Memory.read, if_true] at this
      exact absurd this.symm hc.2.2.1
  | cons c m ih =>
    obtain ⟨a, v⟩ := c
    have hc := Memory.wfFrom_cons.mp hm
    cases m' with
    | nil =>
      have := h a
      simp only [Memory.read, if_true] at this
      exact absurd this hc.2.2.1
    | cons c' m' =>
      obtain ⟨b, w⟩ := c'
      have hc' := Memory.wfFrom_cons.mp hm'
      have hab : a = b := by
        rcases Nat.lt_trichotomy a b with hlt | heq | hlt
        · have h1 := h a
          rw [Memory.read_below (Memory.wfFrom_cons.mpr ⟨Nat.le_refl b, hc'.2⟩) hlt] at h1
          simp only [Memory.read, if_true] at h1
          exact absurd h1 hc.2.2.1
        · exact heq
        · have h1 := h b
          rw [Memory.read_below (Memory.wfFrom_cons.mpr ⟨Nat.le_refl a, hc.2⟩) hlt] at h1
          simp only [Memory.read, if_true] at h1
          exact absurd h1.symm hc'.2.2.1
      subst hab
      have hvw : v = w := by
        have h1 := h a
        simpa only [Memory.read, if_true] using h1
      subst hvw
      have hrest : m = m' := by
        refine ih hc.2.2.2 hc'.2.2.2 (fun k => ?_)
        by_cases hk : k = a
        · subst hk
          rw [Memory.read_below hc.2.2.2 (Nat.lt_succ_self k), Memory.read_below hc'.2.2.2 (Nat.lt_succ_self k)]
        · have h1 := h k
          simpa only [Memory.read, if_neg hk] using h1
      rw [hrest]

/-! ### Blocks -/

@[simp] theorem Memory.length_readBlock (m : Memory) (base n : Nat) :
    (Memory.readBlock m base n).length = n := by
  simp [Memory.readBlock]

@[simp] theorem Memory.getElem_readBlock (m : Memory) (base n k : Nat)
    (h : k < (Memory.readBlock m base n).length) :
    (Memory.readBlock m base n)[k] = Memory.read m (base + k) := by
  simp [Memory.readBlock]

theorem Memory.readBlock_succ (m : Memory) (base n : Nat) :
    Memory.readBlock m base (n + 1) = Memory.read m base :: Memory.readBlock m (base + 1) n := by
  apply List.ext_getElem
  · simp
  · intro k h1 h2
    cases k with
    | zero => simp
    | succ k => simp [Nat.add_assoc, Nat.add_comm 1 k]

/-- A block write leaves every byte outside the block alone, in every memory. -/
theorem Memory.read_writeBlock_other (bs : List Byte) (m : Memory) (base a : Nat)
    (h : a < base ∨ base + bs.length ≤ a) :
    Memory.read (Memory.writeBlock m base bs) a = Memory.read m a := by
  induction bs generalizing m base with
  | nil => rfl
  | cons b bs ih =>
    simp only [List.length_cons] at h
    rw [Memory.writeBlock, ih _ _ (by omega), Memory.read_write_other (by omega)]

/-- A block write that fits keeps the canonical form. -/
theorem Memory.writeBlock_wfFrom {limit : Nat} (bs : List Byte) (m : Memory) (base : Nat)
    (hm : Memory.wfFrom limit 0 m = true) (h : base + bs.length ≤ limit) :
    Memory.wfFrom limit 0 (Memory.writeBlock m base bs) = true := by
  induction bs generalizing m base with
  | nil => exact hm
  | cons b bs ih =>
    simp only [List.length_cons] at h
    exact ih _ _ (Memory.write_wfFrom hm (Nat.zero_le _) (by omega)) (by omega)

/-- A block write stores its bytes in ascending order, in a canonical memory. -/
theorem Memory.read_writeBlock_same {limit : Nat} (bs : List Byte) (m : Memory) (base k : Nat)
    (hm : Memory.wfFrom limit 0 m = true) (h : base + bs.length ≤ limit) (hk : k < bs.length) :
    Memory.read (Memory.writeBlock m base bs) (base + k) = bs[k] := by
  induction bs generalizing m base k with
  | nil => simp at hk
  | cons b bs ih =>
    simp only [List.length_cons] at h hk
    have hw := Memory.write_wfFrom (v := b) hm (Nat.zero_le base) (by omega)
    cases k with
    | zero =>
      rw [Memory.writeBlock, Memory.read_writeBlock_other _ _ _ _ (by omega)]
      exact Memory.read_write_same hm
    | succ k =>
      have := ih (Memory.write m base b) (base + 1) k hw (by omega) (by omega)
      simpa [Memory.writeBlock, Nat.add_assoc, Nat.add_comm 1 k] using this

end Sys2Proof.Machine
end

