-- ==== Sys2Proof/Laws/Display.lean ====
section
/-!
SUPPORT. The sprite engine, cell by cell: what a draw leaves in each cell of the screen, when it reports a collision, and
that it keeps VRAM canonical and two-valued.
-/

namespace Sys2Proof.Machine

/-! ### VRAM is two-valued -/

theorem Memory.vramWf_iff {m : Memory} :
    Memory.vramWf m = true ↔ Memory.wfFrom 2048 0 m = true ∧ ∀ c ∈ m, c.2 = 0xFF := by
  simp [Memory.vramWf]

theorem Memory.read_eq_zero_or_mem (m : Memory) (a : Nat) :
    Memory.read m a = 0 ∨ ∃ c ∈ m, c.2 = Memory.read m a := by
  induction m with
  | nil => exact .inl rfl
  | cons c m ih =>
    obtain ⟨b, w⟩ := c
    by_cases h : a = b
    · exact .inr ⟨(b, w), by simp, by simp [Memory.read, h]⟩
    · simp only [Memory.read, if_neg h]
      rcases ih with h0 | ⟨c, hc, he⟩
      · exact .inl h0
      · exact .inr ⟨c, List.mem_cons_of_mem _ hc, he⟩

/-- Each VRAM cell is 0x00 or 0xFF (R34). -/
theorem Memory.vram_two_valued {m : Memory} (h : Memory.vramWf m = true) (a : Nat) :
    Memory.read m a = 0 ∨ Memory.read m a = 0xFF := by
  rcases Memory.read_eq_zero_or_mem m a with h0 | ⟨c, hc, he⟩
  · exact .inl h0
  · exact .inr (he ▸ (Memory.vramWf_iff.mp h).2 c hc)

theorem Memory.mem_write {m : Memory} {a : Nat} {v : Byte} {c : Host.Cell} (h : c ∈ Memory.write m a v) :
    (c = (a, v) ∧ v ≠ 0) ∨ c ∈ m := by
  induction m with
  | nil =>
    simp only [Memory.write, Memory.consCell] at h
    split at h
    · simp at h
    · simp at h; exact .inl ⟨h, by assumption⟩
  | cons d m ih =>
    obtain ⟨b, w⟩ := d
    simp only [Memory.write, Memory.consCell] at h
    split at h
    · split at h
      · exact .inr h
      · rcases List.mem_cons.mp h with h | h
        · exact .inl ⟨h, by assumption⟩
        · exact .inr h
    · split at h
      · split at h
        · exact .inr (List.mem_cons_of_mem _ h)
        · rcases List.mem_cons.mp h with h | h
          · exact .inl ⟨h, by assumption⟩
          · exact .inr (List.mem_cons_of_mem _ h)
      · rcases List.mem_cons.mp h with h | h
        · exact .inr (h ▸ List.mem_cons_self)
        · rcases ih h with h | h
          · exact .inl h
          · exact .inr (List.mem_cons_of_mem _ h)

/-- Flipping a cell keeps VRAM canonical and two-valued. -/
theorem Memory.flip_vramWf {m : Memory} (h : Memory.vramWf m = true) {k : Nat} (hk : k < 2048) :
    Memory.vramWf (Memory.write m k (Memory.read m k ^^^ 0xFF)) = true := by
  obtain ⟨h1, h2⟩ := Memory.vramWf_iff.mp h
  refine Memory.vramWf_iff.mpr ⟨Memory.write_wfFrom h1 (Nat.zero_le k) hk, fun c hc => ?_⟩
  rcases Memory.mem_write hc with ⟨rfl, hne⟩ | hc
  · rcases Memory.vram_two_valued h k with h0 | h0
    · simp [h0]
    · exact absurd (by rw [h0]; rfl) hne
  · exact h2 c hc

/-! ### Cells -/

theorem cellIndex_lt {px py : Nat} (hx : px < 64) (hy : py < 32) : cellIndex px py < 2048 := by
  unfold cellIndex; omega

theorem cellIndex_inj {px py qx qy : Nat} (hx : px < 64) (hq : qx < 64) :
    cellIndex px py = cellIndex qx qy ↔ px = qx ∧ py = qy := by
  unfold cellIndex; omega

/-- Every VRAM index is the index of a cell of the screen (R35). -/
theorem cellIndex_mod_div (k : Nat) : cellIndex (k % 64) (k / 64) = k := by
  unfold cellIndex; omega

/-! ### One pixel -/

theorem plot_vramWf {px py : Nat} {c : Canvas} (h : Memory.vramWf c.vram = true) :
    Memory.vramWf (plot px py c).vram = true := by
  unfold plot
  split
  · rename_i hp
    exact Memory.flip_vramWf h (cellIndex_lt hp.1 hp.2)
  · exact h

/-- What one pixel leaves in each cell of the screen. -/
theorem read_plot {px py qx qy : Nat} {c : Canvas} (h : Memory.vramWf c.vram = true) (hx : qx < 64) (hy : qy < 32) :
    Memory.read (plot px py c).vram (cellIndex qx qy) =
      if px = qx ∧ py = qy then Memory.read c.vram (cellIndex qx qy) ^^^ 0xFF
      else Memory.read c.vram (cellIndex qx qy) := by
  unfold plot
  split
  · rename_i hp
    split
    · rename_i he
      obtain ⟨rfl, rfl⟩ := he
      exact Memory.read_write_same (Memory.vramWf_iff.mp h).1
    · rename_i hne
      exact Memory.read_write_other (fun he => hne ((cellIndex_inj hp.1 hx).mp he)) _ _
  · rename_i hp
    rw [if_neg (fun he => hp (by rw [he.1, he.2]; exact ⟨hx, hy⟩))]

/-- When one pixel reports a collision (R193, R194). -/
theorem hit_plot {px py : Nat} {c : Canvas} :
    (plot px py c).hit = true ↔
      c.hit = true ∨ (px < 64 ∧ py < 32 ∧ Memory.read c.vram (cellIndex px py) = 0xFF) := by
  unfold plot
  split
  · rename_i hp
    simp [hp]
  · rename_i hp
    constructor
    · exact .inl
    · rintro (h | ⟨h1, h2, -⟩)
      · exact h
      · exact absurd ⟨h1, h2⟩ hp

/-! ### One row -/

/-- Does some column in col .. col+left-1 of the row set cell (px, q)? -/
def bitsCover (ox py : Nat) (row : Byte) (left col px q : Nat) : Bool :=
  decide (q = py) && decide (ox + col ≤ px) && decide (px < ox + col + left) && row.getLsbD (7 - (px - ox))

theorem drawBits_vramWf {ox py : Nat} {row : Byte} (left col : Nat) {c : Canvas}
    (h : Memory.vramWf c.vram = true) : Memory.vramWf (drawBits ox py row left col c).vram = true := by
  induction left generalizing col c with
  | zero => exact h
  | succ left ih =>
    refine ih (col + 1) ?_
    split
    · exact plot_vramWf h
    · exact h

theorem bitsCover_zero {ox py : Nat} {row : Byte} {col px q : Nat} :
    bitsCover ox py row 0 col px q = false := by
  by_cases h1 : ox + col ≤ px
  · have : ¬ px < ox + col := by omega
    simp [bitsCover, this]
  · simp [bitsCover, h1]

theorem bitsCover_succ {ox py : Nat} {row : Byte} {left col px q : Nat} :
    bitsCover ox py row (left + 1) col px q =
      (decide (ox + col = px ∧ py = q ∧ row.getLsbD (7 - col) = true) || bitsCover ox py row left (col + 1) px q) := by
  unfold bitsCover
  by_cases hp : ox + col = px
  · subst hp
    have h1 : ox + col - ox = col := by omega
    have h2 : ¬ ox + (col + 1) ≤ ox + col := by omega
    by_cases hq : q = py
    · subst hq
      simp [h1, h2]
    · simp [hq, Ne.symm hq, h2]
  · have h1 : decide (ox + col ≤ px) = decide (ox + (col + 1) ≤ px) := by
      apply decide_eq_decide.mpr; omega
    have h2 : ox + col + (left + 1) = ox + (col + 1) + left := by omega
    simp [hp, h1, h2]

/-- What a row's bits leave in each cell of the screen. -/
theorem read_drawBits {ox py : Nat} {row : Byte} (left col : Nat) {c : Canvas} {px q : Nat}
    (h : Memory.vramWf c.vram = true) (hx : px < 64) (hy : q < 32) :
    Memory.read (drawBits ox py row left col c).vram (cellIndex px q) =
      if bitsCover ox py row left col px q then Memory.read c.vram (cellIndex px q) ^^^ 0xFF
      else Memory.read c.vram (cellIndex px q) := by
  induction left generalizing col c with
  | zero =>
    rw [drawBits, bitsCover_zero]
    simp
  | succ left ih =>
    have hno : ox + col = px → bitsCover ox py row left (col + 1) px q = false := by
      intro he
      have : ¬ ox + (col + 1) ≤ px := by omega
      simp [bitsCover, this]
    rw [drawBits, bitsCover_succ]
    by_cases hb : row.getLsbD (7 - col) = true
    · rw [if_pos hb, ih (col + 1) (plot_vramWf h), read_plot h hx hy]
      by_cases he : ox + col = px ∧ py = q
      · rw [if_pos he, hno he.1]
        simp [he.1, he.2, hb]
      · have he' : ¬ (ox + col = px ∧ py = q ∧ row.getLsbD (7 - col) = true) := fun h => he ⟨h.1, h.2.1⟩
        simp [he, he']
    · rw [if_neg hb, ih (col + 1) h]
      have he' : ¬ (ox + col = px ∧ py = q ∧ row.getLsbD (7 - col) = true) := fun h => hb h.2.2
      simp [he']

/-- When a row's bits report a collision. -/
theorem hit_drawBits {ox py : Nat} {row : Byte} (left col : Nat) {c : Canvas}
    (h : Memory.vramWf c.vram = true) :
    (drawBits ox py row left col c).hit = true ↔
      c.hit = true ∨ ∃ px q, px < 64 ∧ q < 32 ∧ bitsCover ox py row left col px q = true ∧
        Memory.read c.vram (cellIndex px q) = 0xFF := by
  induction left generalizing col c with
  | zero =>
    simp [drawBits, bitsCover_zero]
  | succ left ih =>
    rw [drawBits]
    by_cases hb : row.getLsbD (7 - col) = true
    · rw [if_pos hb, ih (col + 1) (plot_vramWf h), hit_plot]
      constructor
      · rintro ((h0 | ⟨h1, h2, h3⟩) | ⟨px, q, h1, h2, h3, h4⟩)
        · exact .inl h0
        · exact .inr ⟨_, _, h1, h2, by rw [bitsCover_succ]; simp [hb], h3⟩
        · refine .inr ⟨px, q, h1, h2, by rw [bitsCover_succ, h3]; simp, ?_⟩
          rw [read_plot h h1 h2, if_neg] at h4
          · exact h4
          · rintro ⟨rfl, -⟩
            have : ¬ ox + (col + 1) ≤ ox + col := by omega
            simp [bitsCover, this] at h3
      · rintro (h0 | ⟨px, q, h1, h2, h3, h4⟩)
        · exact .inl (.inl h0)
        · rw [bitsCover_succ] at h3
          rcases Bool.or_eq_true_iff.mp h3 with h5 | h5
          · obtain ⟨rfl, rfl, -⟩ := of_decide_eq_true h5
            exact .inl (.inr ⟨h1, h2, h4⟩)
          · refine .inr ⟨px, q, h1, h2, h5, ?_⟩
            rw [read_plot h h1 h2, if_neg]
            · exact h4
            · rintro ⟨rfl, -⟩
              have : ¬ ox + (col + 1) ≤ ox + col := by omega
              simp [bitsCover, this] at h5
    · rw [if_neg hb, ih (col + 1) h]
      have he : ∀ px q, bitsCover ox py row (left + 1) col px q = bitsCover ox py row left (col + 1) px q := by
        intro px q
        rw [bitsCover_succ]
        simp [hb]
      simp only [he]

/-! ### The whole sprite -/

/-- Does some set bit of the sprite's rows fall on cell (px, q)? -/
def rowsCover (ox py : Nat) (rows : List Byte) (px q : Nat) : Bool :=
  decide (ox ≤ px) && decide (px < ox + 8) && decide (py ≤ q) && decide (q < py + rows.length) &&
    (rows.getD (q - py) 0).getLsbD (7 - (px - ox))

theorem rowsCover_cons {ox py : Nat} {row : Byte} {rows : List Byte} {px q : Nat} :
    rowsCover ox py (row :: rows) px q =
      (bitsCover ox py row 8 0 px q || rowsCover ox (py + 1) rows px q) := by
  unfold rowsCover bitsCover
  by_cases hq : q = py
  · subst hq
    have h1 : ¬ q + 1 ≤ q := by omega
    have h2 : q < q + (row :: rows).length := by simp
    simp [h1]
  · by_cases hle : py ≤ q
    · have h1 : py + 1 ≤ q := by omega
      have h2 : q - py = (q - (py + 1)) + 1 := by omega
      have h3 : decide (q < py + (row :: rows).length) = decide (q < py + 1 + rows.length) := by
        apply decide_eq_decide.mpr; simp only [List.length_cons]; omega
      rw [h3, h2, List.getD_cons_succ]
      simp [hq, h1, hle]
    · have h1 : ¬ py + 1 ≤ q := by omega
      simp [hq, hle, h1]

theorem drawRows_vramWf {ox : Nat} (rows : List Byte) (py : Nat) {c : Canvas}
    (h : Memory.vramWf c.vram = true) : Memory.vramWf (drawRows ox py rows c).vram = true := by
  induction rows generalizing py c with
  | nil => exact h
  | cons row rows ih => exact ih (py + 1) (drawBits_vramWf 8 0 h)

theorem not_cover_both {ox py : Nat} {row : Byte} {rows : List Byte} {px q : Nat}
    (h : bitsCover ox py row 8 0 px q = true) : rowsCover ox (py + 1) rows px q = false := by
  have hq : q = py := by simp [bitsCover] at h; exact h.1.1.1
  have : ¬ py + 1 ≤ q := by omega
  simp [rowsCover, this]

/-- What a draw leaves in each cell of the screen: the cells under set bits are flipped, once, and no others. -/
theorem read_drawRows {ox : Nat} (rows : List Byte) (py : Nat) {c : Canvas} {px q : Nat}
    (h : Memory.vramWf c.vram = true) (hx : px < 64) (hy : q < 32) :
    Memory.read (drawRows ox py rows c).vram (cellIndex px q) =
      if rowsCover ox py rows px q then Memory.read c.vram (cellIndex px q) ^^^ 0xFF
      else Memory.read c.vram (cellIndex px q) := by
  induction rows generalizing py c with
  | nil =>
    have : rowsCover ox py [] px q = false := by simp [rowsCover]
    simp [drawRows, this]
  | cons row rows ih =>
    rw [drawRows, drawRow, ih (py + 1) (drawBits_vramWf 8 0 h), read_drawBits 8 0 h hx hy, rowsCover_cons]
    by_cases hb : bitsCover ox py row 8 0 px q = true
    · simp [hb, not_cover_both hb]
    · simp [hb]

/-- When a draw reports a collision: a set bit falls on a cell of the screen that held 0xFF before the draw. -/
theorem hit_drawRows {ox : Nat} (rows : List Byte) (py : Nat) {c : Canvas} (h : Memory.vramWf c.vram = true) :
    (drawRows ox py rows c).hit = true ↔
      c.hit = true ∨ ∃ px q, px < 64 ∧ q < 32 ∧ rowsCover ox py rows px q = true ∧
        Memory.read c.vram (cellIndex px q) = 0xFF := by
  induction rows generalizing py c with
  | nil =>
    have : ∀ px q, rowsCover ox py [] px q = false := by intro px q; simp [rowsCover]
    simp [drawRows, this]
  | cons row rows ih =>
    have hread : ∀ px q, px < 64 → q < 32 → rowsCover ox (py + 1) rows px q = true →
        Memory.read (drawRow ox py row c).vram (cellIndex px q) = Memory.read c.vram (cellIndex px q) := by
      intro px q h1 h2 h3
      rw [drawRow, read_drawBits 8 0 h h1 h2, if_neg]
      intro hb
      rw [not_cover_both hb] at h3
      cases h3
    rw [drawRow] at hread
    rw [drawRows, drawRow, ih (py + 1) (drawBits_vramWf 8 0 h), hit_drawBits 8 0 h, or_assoc]
    apply or_congr_right
    constructor
    · rintro (⟨px, q, h1, h2, h3, h4⟩ | ⟨px, q, h1, h2, h3, h4⟩)
      · exact ⟨px, q, h1, h2, by rw [rowsCover_cons, h3]; rfl, h4⟩
      · exact ⟨px, q, h1, h2, by rw [rowsCover_cons, h3]; simp, (hread px q h1 h2 h3) ▸ h4⟩
    · rintro ⟨px, q, h1, h2, h3, h4⟩
      rw [rowsCover_cons] at h3
      rcases Bool.or_eq_true_iff.mp h3 with h5 | h5
      · exact .inl ⟨px, q, h1, h2, h5, h4⟩
      · exact .inr ⟨px, q, h1, h2, h5, (hread px q h1 h2 h5).trans h4⟩

end Sys2Proof.Machine
end

