-- ==== Sys2Proof/Laws/State.lean ====
section
/-!
SUPPORT. What each update of the state does to each field: true by unfolding the update once, so that no later proof
unfolds a record update.
-/

namespace Sys2Proof.Machine

variable (s : State)


/-! ### setV -/

@[simp] theorem State.setV_cfg (x : Reg) (b : Byte) : (s.setV x b).cfg = s.cfg := rfl
@[simp] theorem State.setV_mem (x : Reg) (b : Byte) : (s.setV x b).mem = s.mem := rfl
@[simp] theorem State.setV_v (x : Reg) (b : Byte) : (s.setV x b).v = s.v.set x.val b := rfl
@[simp] theorem State.setV_i (x : Reg) (b : Byte) : (s.setV x b).i = s.i := rfl
@[simp] theorem State.setV_pc (x : Reg) (b : Byte) : (s.setV x b).pc = s.pc := rfl
@[simp] theorem State.setV_sp (x : Reg) (b : Byte) : (s.setV x b).sp = s.sp := rfl
@[simp] theorem State.setV_stack (x : Reg) (b : Byte) : (s.setV x b).stack = s.stack := rfl
@[simp] theorem State.setV_dt (x : Reg) (b : Byte) : (s.setV x b).dt = s.dt := rfl
@[simp] theorem State.setV_st (x : Reg) (b : Byte) : (s.setV x b).st = s.st := rfl
@[simp] theorem State.setV_divcnt (x : Reg) (b : Byte) : (s.setV x b).divcnt = s.divcnt := rfl
@[simp] theorem State.setV_keys (x : Reg) (b : Byte) : (s.setV x b).keys = s.keys := rfl
@[simp] theorem State.setV_vram (x : Reg) (b : Byte) : (s.setV x b).vram = s.vram := rfl
@[simp] theorem State.setV_drawFlag (x : Reg) (b : Byte) : (s.setV x b).drawFlag = s.drawFlag := rfl
@[simp] theorem State.setV_soundEvents (x : Reg) (b : Byte) : (s.setV x b).soundEvents = s.soundEvents := rfl
@[simp] theorem State.setV_draws (x : Reg) (b : Byte) : (s.setV x b).draws = s.draws := rfl

/-! ### setResultFlag -/

@[simp] theorem State.setResultFlag_cfg (x : Reg) (r f : Byte) : (s.setResultFlag x r f).cfg = s.cfg := rfl
@[simp] theorem State.setResultFlag_mem (x : Reg) (r f : Byte) : (s.setResultFlag x r f).mem = s.mem := rfl
@[simp] theorem State.setResultFlag_v (x : Reg) (r f : Byte) : (s.setResultFlag x r f).v = (s.v.set x.val r).set 15 f := rfl
@[simp] theorem State.setResultFlag_i (x : Reg) (r f : Byte) : (s.setResultFlag x r f).i = s.i := rfl
@[simp] theorem State.setResultFlag_pc (x : Reg) (r f : Byte) : (s.setResultFlag x r f).pc = s.pc := rfl
@[simp] theorem State.setResultFlag_sp (x : Reg) (r f : Byte) : (s.setResultFlag x r f).sp = s.sp := rfl
@[simp] theorem State.setResultFlag_stack (x : Reg) (r f : Byte) : (s.setResultFlag x r f).stack = s.stack := rfl
@[simp] theorem State.setResultFlag_dt (x : Reg) (r f : Byte) : (s.setResultFlag x r f).dt = s.dt := rfl
@[simp] theorem State.setResultFlag_st (x : Reg) (r f : Byte) : (s.setResultFlag x r f).st = s.st := rfl
@[simp] theorem State.setResultFlag_divcnt (x : Reg) (r f : Byte) : (s.setResultFlag x r f).divcnt = s.divcnt := rfl
@[simp] theorem State.setResultFlag_keys (x : Reg) (r f : Byte) : (s.setResultFlag x r f).keys = s.keys := rfl
@[simp] theorem State.setResultFlag_vram (x : Reg) (r f : Byte) : (s.setResultFlag x r f).vram = s.vram := rfl
@[simp] theorem State.setResultFlag_drawFlag (x : Reg) (r f : Byte) : (s.setResultFlag x r f).drawFlag = s.drawFlag := rfl
@[simp] theorem State.setResultFlag_soundEvents (x : Reg) (r f : Byte) : (s.setResultFlag x r f).soundEvents = s.soundEvents := rfl
@[simp] theorem State.setResultFlag_draws (x : Reg) (r f : Byte) : (s.setResultFlag x r f).draws = s.draws := rfl

/-! ### setVUpTo -/

@[simp] theorem State.setVUpTo_cfg (x : Reg) (f : Nat → Byte) : (s.setVUpTo x f).cfg = s.cfg := rfl
@[simp] theorem State.setVUpTo_mem (x : Reg) (f : Nat → Byte) : (s.setVUpTo x f).mem = s.mem := rfl
@[simp] theorem State.setVUpTo_v (x : Reg) (f : Nat → Byte) : (s.setVUpTo x f).v = Vector.ofFn (fun k : Fin 16 => if k ≤ x then f k.val else s.v[k.val]) := rfl
@[simp] theorem State.setVUpTo_i (x : Reg) (f : Nat → Byte) : (s.setVUpTo x f).i = s.i := rfl
@[simp] theorem State.setVUpTo_pc (x : Reg) (f : Nat → Byte) : (s.setVUpTo x f).pc = s.pc := rfl
@[simp] theorem State.setVUpTo_sp (x : Reg) (f : Nat → Byte) : (s.setVUpTo x f).sp = s.sp := rfl
@[simp] theorem State.setVUpTo_stack (x : Reg) (f : Nat → Byte) : (s.setVUpTo x f).stack = s.stack := rfl
@[simp] theorem State.setVUpTo_dt (x : Reg) (f : Nat → Byte) : (s.setVUpTo x f).dt = s.dt := rfl
@[simp] theorem State.setVUpTo_st (x : Reg) (f : Nat → Byte) : (s.setVUpTo x f).st = s.st := rfl
@[simp] theorem State.setVUpTo_divcnt (x : Reg) (f : Nat → Byte) : (s.setVUpTo x f).divcnt = s.divcnt := rfl
@[simp] theorem State.setVUpTo_keys (x : Reg) (f : Nat → Byte) : (s.setVUpTo x f).keys = s.keys := rfl
@[simp] theorem State.setVUpTo_vram (x : Reg) (f : Nat → Byte) : (s.setVUpTo x f).vram = s.vram := rfl
@[simp] theorem State.setVUpTo_drawFlag (x : Reg) (f : Nat → Byte) : (s.setVUpTo x f).drawFlag = s.drawFlag := rfl
@[simp] theorem State.setVUpTo_soundEvents (x : Reg) (f : Nat → Byte) : (s.setVUpTo x f).soundEvents = s.soundEvents := rfl
@[simp] theorem State.setVUpTo_draws (x : Reg) (f : Nat → Byte) : (s.setVUpTo x f).draws = s.draws := rfl

/-! ### setI -/

@[simp] theorem State.setI_cfg (w : Word) : (s.setI w).cfg = s.cfg := rfl
@[simp] theorem State.setI_mem (w : Word) : (s.setI w).mem = s.mem := rfl
@[simp] theorem State.setI_v (w : Word) : (s.setI w).v = s.v := rfl
@[simp] theorem State.setI_i (w : Word) : (s.setI w).i = w := rfl
@[simp] theorem State.setI_pc (w : Word) : (s.setI w).pc = s.pc := rfl
@[simp] theorem State.setI_sp (w : Word) : (s.setI w).sp = s.sp := rfl
@[simp] theorem State.setI_stack (w : Word) : (s.setI w).stack = s.stack := rfl
@[simp] theorem State.setI_dt (w : Word) : (s.setI w).dt = s.dt := rfl
@[simp] theorem State.setI_st (w : Word) : (s.setI w).st = s.st := rfl
@[simp] theorem State.setI_divcnt (w : Word) : (s.setI w).divcnt = s.divcnt := rfl
@[simp] theorem State.setI_keys (w : Word) : (s.setI w).keys = s.keys := rfl
@[simp] theorem State.setI_vram (w : Word) : (s.setI w).vram = s.vram := rfl
@[simp] theorem State.setI_drawFlag (w : Word) : (s.setI w).drawFlag = s.drawFlag := rfl
@[simp] theorem State.setI_soundEvents (w : Word) : (s.setI w).soundEvents = s.soundEvents := rfl
@[simp] theorem State.setI_draws (w : Word) : (s.setI w).draws = s.draws := rfl

/-! ### setPc -/

@[simp] theorem State.setPc_cfg (w : Word) : (s.setPc w).cfg = s.cfg := rfl
@[simp] theorem State.setPc_mem (w : Word) : (s.setPc w).mem = s.mem := rfl
@[simp] theorem State.setPc_v (w : Word) : (s.setPc w).v = s.v := rfl
@[simp] theorem State.setPc_i (w : Word) : (s.setPc w).i = s.i := rfl
@[simp] theorem State.setPc_pc (w : Word) : (s.setPc w).pc = w := rfl
@[simp] theorem State.setPc_sp (w : Word) : (s.setPc w).sp = s.sp := rfl
@[simp] theorem State.setPc_stack (w : Word) : (s.setPc w).stack = s.stack := rfl
@[simp] theorem State.setPc_dt (w : Word) : (s.setPc w).dt = s.dt := rfl
@[simp] theorem State.setPc_st (w : Word) : (s.setPc w).st = s.st := rfl
@[simp] theorem State.setPc_divcnt (w : Word) : (s.setPc w).divcnt = s.divcnt := rfl
@[simp] theorem State.setPc_keys (w : Word) : (s.setPc w).keys = s.keys := rfl
@[simp] theorem State.setPc_vram (w : Word) : (s.setPc w).vram = s.vram := rfl
@[simp] theorem State.setPc_drawFlag (w : Word) : (s.setPc w).drawFlag = s.drawFlag := rfl
@[simp] theorem State.setPc_soundEvents (w : Word) : (s.setPc w).soundEvents = s.soundEvents := rfl
@[simp] theorem State.setPc_draws (w : Word) : (s.setPc w).draws = s.draws := rfl

/-! ### advance -/

@[simp] theorem State.advance_cfg : s.advance.cfg = s.cfg := rfl
@[simp] theorem State.advance_mem : s.advance.mem = s.mem := rfl
@[simp] theorem State.advance_v : s.advance.v = s.v := rfl
@[simp] theorem State.advance_i : s.advance.i = s.i := rfl
@[simp] theorem State.advance_pc : s.advance.pc = s.pc + 2 := rfl
@[simp] theorem State.advance_sp : s.advance.sp = s.sp := rfl
@[simp] theorem State.advance_stack : s.advance.stack = s.stack := rfl
@[simp] theorem State.advance_dt : s.advance.dt = s.dt := rfl
@[simp] theorem State.advance_st : s.advance.st = s.st := rfl
@[simp] theorem State.advance_divcnt : s.advance.divcnt = s.divcnt := rfl
@[simp] theorem State.advance_keys : s.advance.keys = s.keys := rfl
@[simp] theorem State.advance_vram : s.advance.vram = s.vram := rfl
@[simp] theorem State.advance_drawFlag : s.advance.drawFlag = s.drawFlag := rfl
@[simp] theorem State.advance_soundEvents : s.advance.soundEvents = s.soundEvents := rfl
@[simp] theorem State.advance_draws : s.advance.draws = s.draws := rfl

/-! ### skipIf -/

@[simp] theorem State.skipIf_cfg (c : Bool) : (s.skipIf c).cfg = s.cfg := rfl
@[simp] theorem State.skipIf_mem (c : Bool) : (s.skipIf c).mem = s.mem := rfl
@[simp] theorem State.skipIf_v (c : Bool) : (s.skipIf c).v = s.v := rfl
@[simp] theorem State.skipIf_i (c : Bool) : (s.skipIf c).i = s.i := rfl
@[simp] theorem State.skipIf_pc (c : Bool) : (s.skipIf c).pc = if c then s.pc + 4 else s.pc + 2 := rfl
@[simp] theorem State.skipIf_sp (c : Bool) : (s.skipIf c).sp = s.sp := rfl
@[simp] theorem State.skipIf_stack (c : Bool) : (s.skipIf c).stack = s.stack := rfl
@[simp] theorem State.skipIf_dt (c : Bool) : (s.skipIf c).dt = s.dt := rfl
@[simp] theorem State.skipIf_st (c : Bool) : (s.skipIf c).st = s.st := rfl
@[simp] theorem State.skipIf_divcnt (c : Bool) : (s.skipIf c).divcnt = s.divcnt := rfl
@[simp] theorem State.skipIf_keys (c : Bool) : (s.skipIf c).keys = s.keys := rfl
@[simp] theorem State.skipIf_vram (c : Bool) : (s.skipIf c).vram = s.vram := rfl
@[simp] theorem State.skipIf_drawFlag (c : Bool) : (s.skipIf c).drawFlag = s.drawFlag := rfl
@[simp] theorem State.skipIf_soundEvents (c : Bool) : (s.skipIf c).soundEvents = s.soundEvents := rfl
@[simp] theorem State.skipIf_draws (c : Bool) : (s.skipIf c).draws = s.draws := rfl

/-! ### setMem -/

@[simp] theorem State.setMem_cfg (m : Memory) : (s.setMem m).cfg = s.cfg := rfl
@[simp] theorem State.setMem_mem (m : Memory) : (s.setMem m).mem = m := rfl
@[simp] theorem State.setMem_v (m : Memory) : (s.setMem m).v = s.v := rfl
@[simp] theorem State.setMem_i (m : Memory) : (s.setMem m).i = s.i := rfl
@[simp] theorem State.setMem_pc (m : Memory) : (s.setMem m).pc = s.pc := rfl
@[simp] theorem State.setMem_sp (m : Memory) : (s.setMem m).sp = s.sp := rfl
@[simp] theorem State.setMem_stack (m : Memory) : (s.setMem m).stack = s.stack := rfl
@[simp] theorem State.setMem_dt (m : Memory) : (s.setMem m).dt = s.dt := rfl
@[simp] theorem State.setMem_st (m : Memory) : (s.setMem m).st = s.st := rfl
@[simp] theorem State.setMem_divcnt (m : Memory) : (s.setMem m).divcnt = s.divcnt := rfl
@[simp] theorem State.setMem_keys (m : Memory) : (s.setMem m).keys = s.keys := rfl
@[simp] theorem State.setMem_vram (m : Memory) : (s.setMem m).vram = s.vram := rfl
@[simp] theorem State.setMem_drawFlag (m : Memory) : (s.setMem m).drawFlag = s.drawFlag := rfl
@[simp] theorem State.setMem_soundEvents (m : Memory) : (s.setMem m).soundEvents = s.soundEvents := rfl
@[simp] theorem State.setMem_draws (m : Memory) : (s.setMem m).draws = s.draws := rfl

/-! ### setVram -/

@[simp] theorem State.setVram_cfg (m : Memory) : (s.setVram m).cfg = s.cfg := rfl
@[simp] theorem State.setVram_mem (m : Memory) : (s.setVram m).mem = s.mem := rfl
@[simp] theorem State.setVram_v (m : Memory) : (s.setVram m).v = s.v := rfl
@[simp] theorem State.setVram_i (m : Memory) : (s.setVram m).i = s.i := rfl
@[simp] theorem State.setVram_pc (m : Memory) : (s.setVram m).pc = s.pc := rfl
@[simp] theorem State.setVram_sp (m : Memory) : (s.setVram m).sp = s.sp := rfl
@[simp] theorem State.setVram_stack (m : Memory) : (s.setVram m).stack = s.stack := rfl
@[simp] theorem State.setVram_dt (m : Memory) : (s.setVram m).dt = s.dt := rfl
@[simp] theorem State.setVram_st (m : Memory) : (s.setVram m).st = s.st := rfl
@[simp] theorem State.setVram_divcnt (m : Memory) : (s.setVram m).divcnt = s.divcnt := rfl
@[simp] theorem State.setVram_keys (m : Memory) : (s.setVram m).keys = s.keys := rfl
@[simp] theorem State.setVram_vram (m : Memory) : (s.setVram m).vram = m := rfl
@[simp] theorem State.setVram_drawFlag (m : Memory) : (s.setVram m).drawFlag = s.drawFlag := rfl
@[simp] theorem State.setVram_soundEvents (m : Memory) : (s.setVram m).soundEvents = s.soundEvents := rfl
@[simp] theorem State.setVram_draws (m : Memory) : (s.setVram m).draws = s.draws := rfl

/-! ### setDrawFlag -/

@[simp] theorem State.setDrawFlag_cfg (b : Bool) : (s.setDrawFlag b).cfg = s.cfg := rfl
@[simp] theorem State.setDrawFlag_mem (b : Bool) : (s.setDrawFlag b).mem = s.mem := rfl
@[simp] theorem State.setDrawFlag_v (b : Bool) : (s.setDrawFlag b).v = s.v := rfl
@[simp] theorem State.setDrawFlag_i (b : Bool) : (s.setDrawFlag b).i = s.i := rfl
@[simp] theorem State.setDrawFlag_pc (b : Bool) : (s.setDrawFlag b).pc = s.pc := rfl
@[simp] theorem State.setDrawFlag_sp (b : Bool) : (s.setDrawFlag b).sp = s.sp := rfl
@[simp] theorem State.setDrawFlag_stack (b : Bool) : (s.setDrawFlag b).stack = s.stack := rfl
@[simp] theorem State.setDrawFlag_dt (b : Bool) : (s.setDrawFlag b).dt = s.dt := rfl
@[simp] theorem State.setDrawFlag_st (b : Bool) : (s.setDrawFlag b).st = s.st := rfl
@[simp] theorem State.setDrawFlag_divcnt (b : Bool) : (s.setDrawFlag b).divcnt = s.divcnt := rfl
@[simp] theorem State.setDrawFlag_keys (b : Bool) : (s.setDrawFlag b).keys = s.keys := rfl
@[simp] theorem State.setDrawFlag_vram (b : Bool) : (s.setDrawFlag b).vram = s.vram := rfl
@[simp] theorem State.setDrawFlag_drawFlag (b : Bool) : (s.setDrawFlag b).drawFlag = b := rfl
@[simp] theorem State.setDrawFlag_soundEvents (b : Bool) : (s.setDrawFlag b).soundEvents = s.soundEvents := rfl
@[simp] theorem State.setDrawFlag_draws (b : Bool) : (s.setDrawFlag b).draws = s.draws := rfl

/-! ### setDt -/

@[simp] theorem State.setDt_cfg (b : Byte) : (s.setDt b).cfg = s.cfg := rfl
@[simp] theorem State.setDt_mem (b : Byte) : (s.setDt b).mem = s.mem := rfl
@[simp] theorem State.setDt_v (b : Byte) : (s.setDt b).v = s.v := rfl
@[simp] theorem State.setDt_i (b : Byte) : (s.setDt b).i = s.i := rfl
@[simp] theorem State.setDt_pc (b : Byte) : (s.setDt b).pc = s.pc := rfl
@[simp] theorem State.setDt_sp (b : Byte) : (s.setDt b).sp = s.sp := rfl
@[simp] theorem State.setDt_stack (b : Byte) : (s.setDt b).stack = s.stack := rfl
@[simp] theorem State.setDt_dt (b : Byte) : (s.setDt b).dt = b := rfl
@[simp] theorem State.setDt_st (b : Byte) : (s.setDt b).st = s.st := rfl
@[simp] theorem State.setDt_divcnt (b : Byte) : (s.setDt b).divcnt = s.divcnt := rfl
@[simp] theorem State.setDt_keys (b : Byte) : (s.setDt b).keys = s.keys := rfl
@[simp] theorem State.setDt_vram (b : Byte) : (s.setDt b).vram = s.vram := rfl
@[simp] theorem State.setDt_drawFlag (b : Byte) : (s.setDt b).drawFlag = s.drawFlag := rfl
@[simp] theorem State.setDt_soundEvents (b : Byte) : (s.setDt b).soundEvents = s.soundEvents := rfl
@[simp] theorem State.setDt_draws (b : Byte) : (s.setDt b).draws = s.draws := rfl

/-! ### setSt -/

@[simp] theorem State.setSt_cfg (b : Byte) : (s.setSt b).cfg = s.cfg := rfl
@[simp] theorem State.setSt_mem (b : Byte) : (s.setSt b).mem = s.mem := rfl
@[simp] theorem State.setSt_v (b : Byte) : (s.setSt b).v = s.v := rfl
@[simp] theorem State.setSt_i (b : Byte) : (s.setSt b).i = s.i := rfl
@[simp] theorem State.setSt_pc (b : Byte) : (s.setSt b).pc = s.pc := rfl
@[simp] theorem State.setSt_sp (b : Byte) : (s.setSt b).sp = s.sp := rfl
@[simp] theorem State.setSt_stack (b : Byte) : (s.setSt b).stack = s.stack := rfl
@[simp] theorem State.setSt_dt (b : Byte) : (s.setSt b).dt = s.dt := rfl
@[simp] theorem State.setSt_st (b : Byte) : (s.setSt b).st = b := rfl
@[simp] theorem State.setSt_divcnt (b : Byte) : (s.setSt b).divcnt = s.divcnt := rfl
@[simp] theorem State.setSt_keys (b : Byte) : (s.setSt b).keys = s.keys := rfl
@[simp] theorem State.setSt_vram (b : Byte) : (s.setSt b).vram = s.vram := rfl
@[simp] theorem State.setSt_drawFlag (b : Byte) : (s.setSt b).drawFlag = s.drawFlag := rfl
@[simp] theorem State.setSt_soundEvents (b : Byte) : (s.setSt b).soundEvents = s.soundEvents := rfl
@[simp] theorem State.setSt_draws (b : Byte) : (s.setSt b).draws = s.draws := rfl

/-! ### setKeys -/

@[simp] theorem State.setKeys_cfg (k : Vector Bool 16) : (s.setKeys k).cfg = s.cfg := rfl
@[simp] theorem State.setKeys_mem (k : Vector Bool 16) : (s.setKeys k).mem = s.mem := rfl
@[simp] theorem State.setKeys_v (k : Vector Bool 16) : (s.setKeys k).v = s.v := rfl
@[simp] theorem State.setKeys_i (k : Vector Bool 16) : (s.setKeys k).i = s.i := rfl
@[simp] theorem State.setKeys_pc (k : Vector Bool 16) : (s.setKeys k).pc = s.pc := rfl
@[simp] theorem State.setKeys_sp (k : Vector Bool 16) : (s.setKeys k).sp = s.sp := rfl
@[simp] theorem State.setKeys_stack (k : Vector Bool 16) : (s.setKeys k).stack = s.stack := rfl
@[simp] theorem State.setKeys_dt (k : Vector Bool 16) : (s.setKeys k).dt = s.dt := rfl
@[simp] theorem State.setKeys_st (k : Vector Bool 16) : (s.setKeys k).st = s.st := rfl
@[simp] theorem State.setKeys_divcnt (k : Vector Bool 16) : (s.setKeys k).divcnt = s.divcnt := rfl
@[simp] theorem State.setKeys_keys (k : Vector Bool 16) : (s.setKeys k).keys = k := rfl
@[simp] theorem State.setKeys_vram (k : Vector Bool 16) : (s.setKeys k).vram = s.vram := rfl
@[simp] theorem State.setKeys_drawFlag (k : Vector Bool 16) : (s.setKeys k).drawFlag = s.drawFlag := rfl
@[simp] theorem State.setKeys_soundEvents (k : Vector Bool 16) : (s.setKeys k).soundEvents = s.soundEvents := rfl
@[simp] theorem State.setKeys_draws (k : Vector Bool 16) : (s.setKeys k).draws = s.draws := rfl

/-! ### setSoundEvents -/

@[simp] theorem State.setSoundEvents_cfg (n : Nat) : (s.setSoundEvents n).cfg = s.cfg := rfl
@[simp] theorem State.setSoundEvents_mem (n : Nat) : (s.setSoundEvents n).mem = s.mem := rfl
@[simp] theorem State.setSoundEvents_v (n : Nat) : (s.setSoundEvents n).v = s.v := rfl
@[simp] theorem State.setSoundEvents_i (n : Nat) : (s.setSoundEvents n).i = s.i := rfl
@[simp] theorem State.setSoundEvents_pc (n : Nat) : (s.setSoundEvents n).pc = s.pc := rfl
@[simp] theorem State.setSoundEvents_sp (n : Nat) : (s.setSoundEvents n).sp = s.sp := rfl
@[simp] theorem State.setSoundEvents_stack (n : Nat) : (s.setSoundEvents n).stack = s.stack := rfl
@[simp] theorem State.setSoundEvents_dt (n : Nat) : (s.setSoundEvents n).dt = s.dt := rfl
@[simp] theorem State.setSoundEvents_st (n : Nat) : (s.setSoundEvents n).st = s.st := rfl
@[simp] theorem State.setSoundEvents_divcnt (n : Nat) : (s.setSoundEvents n).divcnt = s.divcnt := rfl
@[simp] theorem State.setSoundEvents_keys (n : Nat) : (s.setSoundEvents n).keys = s.keys := rfl
@[simp] theorem State.setSoundEvents_vram (n : Nat) : (s.setSoundEvents n).vram = s.vram := rfl
@[simp] theorem State.setSoundEvents_drawFlag (n : Nat) : (s.setSoundEvents n).drawFlag = s.drawFlag := rfl
@[simp] theorem State.setSoundEvents_soundEvents (n : Nat) : (s.setSoundEvents n).soundEvents = n := rfl
@[simp] theorem State.setSoundEvents_draws (n : Nat) : (s.setSoundEvents n).draws = s.draws := rfl

/-! ### countDraw -/

@[simp] theorem State.countDraw_cfg : s.countDraw.cfg = s.cfg := rfl
@[simp] theorem State.countDraw_mem : s.countDraw.mem = s.mem := rfl
@[simp] theorem State.countDraw_v : s.countDraw.v = s.v := rfl
@[simp] theorem State.countDraw_i : s.countDraw.i = s.i := rfl
@[simp] theorem State.countDraw_pc : s.countDraw.pc = s.pc := rfl
@[simp] theorem State.countDraw_sp : s.countDraw.sp = s.sp := rfl
@[simp] theorem State.countDraw_stack : s.countDraw.stack = s.stack := rfl
@[simp] theorem State.countDraw_dt : s.countDraw.dt = s.dt := rfl
@[simp] theorem State.countDraw_st : s.countDraw.st = s.st := rfl
@[simp] theorem State.countDraw_divcnt : s.countDraw.divcnt = s.divcnt := rfl
@[simp] theorem State.countDraw_keys : s.countDraw.keys = s.keys := rfl
@[simp] theorem State.countDraw_vram : s.countDraw.vram = s.vram := rfl
@[simp] theorem State.countDraw_drawFlag : s.countDraw.drawFlag = s.drawFlag := rfl
@[simp] theorem State.countDraw_soundEvents : s.countDraw.soundEvents = s.soundEvents := rfl
@[simp] theorem State.countDraw_draws : s.countDraw.draws = s.draws + 1 := rfl

/-! ### timerTick -/

@[simp] theorem timerTick_cfg : (timerTick s).cfg = s.cfg := rfl
@[simp] theorem timerTick_mem : (timerTick s).mem = s.mem := rfl
@[simp] theorem timerTick_v : (timerTick s).v = s.v := rfl
@[simp] theorem timerTick_i : (timerTick s).i = s.i := rfl
@[simp] theorem timerTick_pc : (timerTick s).pc = s.pc := rfl
@[simp] theorem timerTick_sp : (timerTick s).sp = s.sp := rfl
@[simp] theorem timerTick_stack : (timerTick s).stack = s.stack := rfl
@[simp] theorem timerTick_dt : (timerTick s).dt = if s.tickWraps then countDown s.dt else s.dt := rfl
@[simp] theorem timerTick_st : (timerTick s).st = if s.tickWraps then countDown s.st else s.st := rfl
@[simp] theorem timerTick_divcnt : (timerTick s).divcnt = s.nextDivcnt := rfl
@[simp] theorem timerTick_keys : (timerTick s).keys = s.keys := rfl
@[simp] theorem timerTick_vram : (timerTick s).vram = s.vram := rfl
@[simp] theorem timerTick_drawFlag : (timerTick s).drawFlag = s.drawFlag := rfl
@[simp] theorem timerTick_soundEvents : (timerTick s).soundEvents = if s.tickWraps && decide (s.st ≠ 0) && decide (countDown s.st = 0) then s.soundEvents + 1
      else s.soundEvents := rfl
@[simp] theorem timerTick_draws : (timerTick s).draws = s.draws := rfl

/-! ### Reading a register back -/

theorem State.getV_setV (x r : Reg) (b : Byte) :
    (s.setV x b).getV r = if x = r then b else s.getV r := by
  simp only [State.getV, State.setV_v, Vector.getElem_set, Fin.ext_iff]

@[simp] theorem State.getV_setV_same (x : Reg) (b : Byte) : (s.setV x b).getV x = b := by
  simp [State.getV_setV]

theorem State.getV_setV_other {x r : Reg} (h : r ≠ x) (b : Byte) : (s.setV x b).getV r = s.getV r := by
  simp [State.getV_setV, Ne.symm h]

theorem State.getV_setResultFlag (x r : Reg) (b f : Byte) :
    (s.setResultFlag x b f).getV r = if VF = r then f else if x = r then b else s.getV r := by
  simp only [State.setResultFlag, State.getV_setV]

theorem State.getV_setVUpTo (x r : Reg) (f : Nat → Byte) :
    (s.setVUpTo x f).getV r = if r ≤ x then f r.val else s.getV r := by
  simp [State.getV]

@[simp] theorem State.getV_setI (r : Reg) (w : Word) : (s.setI w).getV r = s.getV r := rfl
@[simp] theorem State.getV_setPc (r : Reg) (w : Word) : (s.setPc w).getV r = s.getV r := rfl
@[simp] theorem State.getV_advance (r : Reg) : s.advance.getV r = s.getV r := rfl
@[simp] theorem State.getV_skipIf (r : Reg) (c : Bool) : (s.skipIf c).getV r = s.getV r := rfl
@[simp] theorem State.getV_setMem (r : Reg) (m : Memory) : (s.setMem m).getV r = s.getV r := rfl
@[simp] theorem State.getV_setVram (r : Reg) (m : Memory) : (s.setVram m).getV r = s.getV r := rfl
@[simp] theorem State.getV_setDrawFlag (r : Reg) (b : Bool) : (s.setDrawFlag b).getV r = s.getV r := rfl
@[simp] theorem State.getV_setDt (r : Reg) (b : Byte) : (s.setDt b).getV r = s.getV r := rfl
@[simp] theorem State.getV_setSt (r : Reg) (b : Byte) : (s.setSt b).getV r = s.getV r := rfl
@[simp] theorem State.getV_setKeys (r : Reg) (k : Vector Bool 16) : (s.setKeys k).getV r = s.getV r := rfl
@[simp] theorem State.getV_setSoundEvents (r : Reg) (n : Nat) : (s.setSoundEvents n).getV r = s.getV r := rfl
@[simp] theorem State.getV_countDraw (r : Reg) : s.countDraw.getV r = s.getV r := rfl
@[simp] theorem getV_timerTick (r : Reg) : (timerTick s).getV r = s.getV r := rfl

end Sys2Proof.Machine
end

