-- ==== Sys2Proof/Laws/Ops.lean ====
section
/-!
SUPPORT. One lemma per shared operation that says everything it can do: the range check, the stack, fetch, the end of a
cycle, the step and the host's cycle.
-/

namespace Sys2Proof.Machine

/-! ### The range check -/

theorem rangeFault_eq_none {kind : AccessKind} {base cnt : Nat} :
    rangeFault kind base cnt = none ↔ base + cnt - 1 < 4096 := by
  unfold rangeFault
  split <;> simp_all

theorem rangeFault_eq_some {kind : AccessKind} {base cnt : Nat} {e : Fault} :
    rangeFault kind base cnt = some e ↔
      4096 ≤ base + cnt - 1 ∧ e = .memoryOutOfBounds kind (max base 4096) := by
  unfold rangeFault
  split <;> simp_all [eq_comm]

/-! ### The stack -/

theorem State.push_eq_none {s : State} {w : Word} : s.push w = none ↔ s.sp.val = 16 := by
  have := s.sp.isLt
  unfold State.push
  split
  · simp; omega
  · simp; omega

/-- A push that answers writes the slot at SP and nothing else of the stack, and adds 1 to SP. -/
theorem State.push_eq_some {s t : State} {w : Word} :
    s.push w = some t ↔
      ∃ h : s.sp.val < 16,
        t = { s with stack := s.stack.set s.sp.val w, sp := ⟨s.sp.val + 1, by omega⟩ } := by
  unfold State.push
  split <;> simp_all [eq_comm]

theorem State.pop_eq_none {s : State} : s.pop = none ↔ s.sp.val = 0 := by
  unfold State.pop
  split
  · simp; omega
  · simp; omega

/-- A pop that answers gives the slot below SP, takes 1 from SP and leaves every slot as it is. -/
theorem State.pop_eq_some {s t : State} {w : Word} :
    s.pop = some (w, t) ↔
      ∃ h : 0 < s.sp.val,
        w = s.stack[s.sp.val - 1] ∧ t = { s with sp := ⟨s.sp.val - 1, by omega⟩ } := by
  unfold State.pop
  split
  · rename_i h
    simp [h, eq_comm]
  · simp_all

/-! ### Fetch -/

theorem fetchWord_eq_ok {s : State} {op : Word} :
    fetchWord s = .ok op ↔
      s.pc.toNat + 1 < 4096 ∧
        op = wordOfBytes (Memory.read s.mem s.pc.toNat) (Memory.read s.mem (s.pc.toNat + 1)) := by
  unfold fetchWord
  split
  · rename_i e h
    have := (rangeFault_eq_some.mp h).1
    simp; omega
  · rename_i h
    have := rangeFault_eq_none.mp h
    simp [eq_comm]; omega

theorem fetchWord_eq_error {s : State} {e : Fault} :
    fetchWord s = .error e ↔
      4096 ≤ s.pc.toNat + 1 ∧ e = .memoryOutOfBounds .fetch (max s.pc.toNat 4096) := by
  unfold fetchWord
  split
  · rename_i e' h
    have := rangeFault_eq_some.mp h
    constructor
    · rintro h'
      cases h'
      exact ⟨by omega, this.2⟩
    · rintro ⟨-, rfl⟩
      rw [this.2]
  · rename_i h
    have := rangeFault_eq_none.mp h
    constructor
    · intro h'; cases h'
    · rintro ⟨h', -⟩; omega

theorem fetchInstr_eq_ok {s : State} {i : Instr} :
    fetchInstr s = .ok i ↔ ∃ op, fetchWord s = .ok op ∧ decode op = .ok i := by
  unfold fetchInstr
  constructor
  · intro h
    split at h
    · cases h
    · rename_i op hop
      split at h
      · rename_i j hj
        cases h
        exact ⟨op, hop, hj⟩
      · cases h
  · rintro ⟨op, h1, h2⟩
    simp only [h1, h2]

/-- Fetching reads MEM and PC and nothing else. -/
theorem fetchInstr_congr {s t : State} (hm : t.mem = s.mem) (hp : t.pc = s.pc) :
    fetchInstr t = fetchInstr s := by
  simp only [fetchInstr, fetchWord, hm, hp]

/-! ### The end of a cycle, and the step -/

theorem endCycle_eq_next {o : Host.Outcome State Fault Refusal} {t : State} :
    endCycle o = .next t ↔ ∃ u, o = .next u ∧ t = timerTick u := by
  cases o <;> simp [endCycle, eq_comm]

theorem endCycle_eq_fault {o : Host.Outcome State Fault Refusal} {e : Fault} :
    endCycle o = .fault e ↔ o = .fault e := by
  cases o <;> simp [endCycle]

/-- Everything a step that answers a next state can have done: it fetched an instruction, executed it and ticked. -/
theorem step_eq_next {s t : State} :
    step s = .next t ↔ ∃ i u, fetchInstr s = .ok i ∧ exec i s = .next u ∧ t = timerTick u := by
  unfold step
  split
  · rename_i e h
    simp [raise, h]
  · rename_i i h
    rw [endCycle_eq_next]
    simp [h]

/-- Everything a step that ends in an error can have done. -/
theorem step_eq_fault {s : State} {e : Fault} :
    step s = .fault e ↔
      fetchInstr s = .error e ∨ ∃ i, fetchInstr s = .ok i ∧ exec i s = .fault e := by
  unfold step
  split
  · rename_i e' h
    simp [raise, h]
  · rename_i i h
    rw [endCycle_eq_fault]
    simp [h]

theorem hostExecuteCycle_of_fault {s : State} {e : Fault} (h : step s = .fault e) :
    hostExecuteCycle s = (s, .cycleError e) := by
  simp [hostExecuteCycle, h]

theorem hostExecuteCycle_of_next {s t : State} (h : step s = .next t) :
    hostExecuteCycle s = (t, .cycleOk) := by
  simp [hostExecuteCycle, h]

theorem coreRun_succ_of_next (M : Host.Core) {s t : M.State} (h : M.step s = .next t) (k : Nat) :
    M.run (k + 1) s = M.run k t := by
  rw [Host.Core.run, h]

theorem coreRun_succ_eq_next (M : Host.Core) {s t : M.State} {k : Nat} (h : M.run (k + 1) s = .next t) :
    ∃ u, M.step s = .next u ∧ M.run k u = .next t := by
  rw [Host.Core.run] at h
  cases hc : M.step s with
  | next u => exact ⟨u, rfl, by simpa only [hc] using h⟩
  | fault e => simp only [hc] at h; cases h
  | refused r => simp only [hc] at h; cases h

/-- One step, then the rest of the run. -/
theorem run_succ_of_next {s t : State} (h : step s = .next t) (k : Nat) :
    Host.Core.run Sys2Proof.core (k + 1) s = Host.Core.run Sys2Proof.core k t :=
  coreRun_succ_of_next Sys2Proof.core h k

/-- A run of one more cycle that answers a next state begins with a step that does. -/
theorem run_succ_eq_next {s t : State} {k : Nat} :
    Host.Core.run Sys2Proof.core (k + 1) s = .next t ↔
      ∃ u, step s = .next u ∧ Host.Core.run Sys2Proof.core k u = .next t :=
  ⟨coreRun_succ_eq_next Sys2Proof.core, fun ⟨_, h1, h2⟩ => (run_succ_of_next h1 k).trans h2⟩

/-! ### The configuration and the timers -/

/-- DIV >= 1 in every configuration (R5, R245). -/
theorem Config.div_pos (c : Config) : 0 < c.div := by
  unfold Config.div Config.clockHz
  omega

theorem State.nextDivcnt_lt (s : State) : s.nextDivcnt < s.cfg.div :=
  Nat.mod_lt _ (Config.div_pos s.cfg)

/-- One decrement as a number: never below 0 (R247). -/
theorem toNat_countDown (t : Byte) : (countDown t).toNat = t.toNat - 1 := by
  unfold countDown
  split
  · rename_i h; rw [h]; rfl
  · rename_i h
    have h0 : t.toNat ≠ 0 := fun h' => h (BitVec.eq_of_toNat_eq h')
    have := t.isLt
    rw [BitVec.toNat_sub]
    simp
    omega

end Sys2Proof.Machine
end

