-- ==== Sys2Proof/Laws/Exec.lean ====
section
/-!
SUPPORT. Inversion of `exec` for the instructions that do not answer a next state in one line: what holds if they answer
one, and what that state is. Every other arm of `exec` is a `.next` outright, so `cases` on the equation is enough. Also
what `load_rom` and `initialize` leave.
-/

namespace Sys2Proof.Machine

/-- The bounds check of DXYN lets every n = 0 through, and else every sprite inside memory. -/
theorem State.spriteFault_eq_none {s : State} {n : BitVec 4} :
    s.spriteFault n = none ↔ n.toNat = 0 ∨ s.i.toNat + n.toNat - 1 < 4096 := by
  unfold State.spriteFault
  split
  · rename_i h; subst h; simp
  · rename_i hn
    have : n.toNat ≠ 0 := fun h => hn (BitVec.eq_of_toNat_eq h)
    rw [rangeFault_eq_none]; omega

theorem State.spriteFault_eq_some {s : State} {n : BitVec 4} {e : Fault} :
    s.spriteFault n = some e ↔
      0 < n.toNat ∧ 4096 ≤ s.i.toNat + n.toNat - 1 ∧ e = .memoryOutOfBounds .read (max s.i.toNat 4096) := by
  unfold State.spriteFault
  split
  · rename_i h; subst h; simp
  · rename_i hn
    have : n.toNat ≠ 0 := fun h => hn (BitVec.eq_of_toNat_eq h)
    rw [rangeFault_eq_some]
    constructor
    · exact fun h => ⟨by omega, h⟩
    · exact fun h => h.2

theorem exec_ret_next {s t : State} (h : exec .ret s = .next t) :
    ∃ k : Fin 16, s.sp.val = k.val + 1 ∧ t = { s with sp := ⟨k.val, by omega⟩, pc := s.stack[k.val] } := by
  simp only [exec, execRet] at h
  split at h
  · cases h
  · rename_i w u hp
    obtain ⟨h0, rfl, rfl⟩ := State.pop_eq_some.mp hp
    cases h
    have := s.sp.isLt
    exact ⟨⟨s.sp.val - 1, by omega⟩, by simp; omega, rfl⟩

theorem exec_call_next {nnn : BitVec 12} {s t : State} (h : exec (.call nnn) s = .next t) :
    ∃ h : s.sp.val < 16,
      t = { s with stack := s.stack.set s.sp.val (s.pc + 2), sp := ⟨s.sp.val + 1, by omega⟩, pc := zext16 nnn } := by
  simp only [exec, execCall] at h
  split at h
  · cases h
  · rename_i u hp
    obtain ⟨h0, rfl⟩ := State.push_eq_some.mp hp
    cases h
    exact ⟨h0, rfl⟩

theorem exec_drw_next {x y : Reg} {n : BitVec 4} {s t : State} (h : exec (.drw x y n) s = .next t) :
    t = (((s.setVram (s.drawn x y n).vram).setV VF (collisionFlag (s.drawn x y n).hit)).setDrawFlag true).advance := by
  simp only [exec, execDrw] at h
  split at h
  · cases h
  · cases h; rfl

theorem exec_ldB_next {x : Reg} {s t : State} (h : exec (.ldB x) s = .next t) :
    s.i.toNat + 2 < 4096 ∧
      t = (s.setMem (Memory.writeBlock s.mem s.i.toNat (bcdDigits (s.getV x)))).advance := by
  simp only [exec, execLdB] at h
  split at h
  · cases h
  · rename_i hr
    cases h
    have := rangeFault_eq_none.mp hr
    exact ⟨by omega, rfl⟩

theorem exec_stRegs_next {x : Reg} {s t : State} (h : exec (.stRegs x) s = .next t) :
    s.i.toNat + x.val < 4096 ∧ t = (s.setMem (Memory.writeBlock s.mem s.i.toNat (s.regsUpTo x))).advance := by
  simp only [exec, execStRegs] at h
  split at h
  · cases h
  · rename_i hr
    cases h
    have := rangeFault_eq_none.mp hr
    exact ⟨by omega, rfl⟩

theorem exec_ldRegs_next {x : Reg} {s t : State} (h : exec (.ldRegs x) s = .next t) :
    s.i.toNat + x.val < 4096 ∧ t = (s.setVUpTo x (fun k => Memory.read s.mem (s.i.toNat + k))).advance := by
  simp only [exec, execLdRegs] at h
  split at h
  · cases h
  · rename_i hr
    cases h
    have := rangeFault_eq_none.mp hr
    exact ⟨by omega, rfl⟩

theorem exec_ldVxK_next {x : Reg} {s t : State} (h : exec (.ldVxK x) s = .next t) :
    (s.firstPressed = none ∧ t = s) ∨ ∃ k, s.firstPressed = some k ∧ t = (s.setV x (keyNumber k)).advance := by
  simp only [exec, execLdVxK] at h
  split at h
  · rename_i k hk; cases h; exact .inr ⟨k, hk, rfl⟩
  · rename_i hk; cases h; exact .inl ⟨hk, rfl⟩

/-- No key is found exactly when none of those scanned is pressed. -/
theorem State.firstPressed_eq_none {s : State} :
    s.firstPressed = none ↔ ∀ k : Fin 16, k.val ≤ s.cfg.lastKey.toNat → s.keys[k.val] = false := by
  simp [State.firstPressed, List.find?_eq_none]

/-- The lowest pressed key among those scanned. -/
theorem State.firstPressed_eq_some_of {s : State} {k : Fin 16} (h1 : k.val ≤ s.cfg.lastKey.toNat)
    (h2 : s.keys[k.val] = true) (h3 : ∀ j : Fin 16, j < k → s.keys[j.val] = false) : s.firstPressed = some k := by
  unfold State.firstPressed
  rw [List.find?_eq_some_iff_append]
  refine ⟨by simp [h1, h2], (List.finRange 16).take k.val, (List.finRange 16).drop (k.val + 1), ?_, ?_⟩
  · clear h1 h2 h3
    revert k
    decide
  · intro a ha
    rw [List.mem_take_iff_getElem] at ha
    obtain ⟨j, hj, rfl⟩ := ha
    simp at hj ⊢
    exact .inr (h3 ⟨j, by omega⟩ (by simp [Fin.lt_def]; omega))

theorem hostLoadRom_eq_ok {bytes : List Byte} {s t : State} :
    hostLoadRom bytes s = .ok t ↔
      bytes.length ≤ 3584 ∧ t = s.setMem (Memory.writeBlock s.mem 0x200 bytes) := by
  unfold hostLoadRom romFits
  split <;> simp_all [eq_comm]

theorem hostInitialize_mem (s : State) :
    (hostInitialize s).mem = Memory.writeBlock s.mem 0x50 s.cfg.fontset.toList := rfl

/-- `initialize` keeps MEM canonical. -/
theorem hostInitialize_wf {s : State} (h : Memory.wf s.mem = true) : Memory.wf (hostInitialize s).mem = true :=
  Memory.writeBlock_wfFrom _ _ _ h (by simp)

/-- `load_rom` keeps MEM canonical. -/
theorem hostLoadRom_wf {bytes : List Byte} {s t : State} (h : Memory.wf s.mem = true)
    (ht : hostLoadRom bytes s = .ok t) : Memory.wf t.mem = true := by
  obtain ⟨hl, rfl⟩ := hostLoadRom_eq_ok.mp ht
  exact Memory.writeBlock_wfFrom _ _ _ h (by omega)

end Sys2Proof.Machine
end

