-- ==== Sys2Proof/Laws/PerInstr.lean ====
section
/-!
SUPPORT. The family TableRow: an instruction's encoding lies in its own row of spec/opcode_table.json, that is,
`(op AND mask) == match` holds of it (30_encoding.md R84). One lemma per constructor.
-/

namespace Sys2Proof.Laws.TableRow

/-- The "mask" of the instruction's row in spec/opcode_table.json. -/
def mask : Instr → Word
  | .cls => 0xF0FF
  | .ret => 0xF0FF
  | .jp _ => 0xF000
  | .call _ => 0xF000
  | .seImm _ _ => 0xF000
  | .sneImm _ _ => 0xF000
  | .seReg _ _ => 0xF000
  | .ldImm _ _ => 0xF000
  | .addImm _ _ => 0xF000
  | .ldReg _ _ => 0xF00F
  | .orReg _ _ => 0xF00F
  | .andReg _ _ => 0xF00F
  | .xorReg _ _ => 0xF00F
  | .addReg _ _ => 0xF00F
  | .sub _ _ => 0xF00F
  | .shr _ => 0xF00F
  | .subn _ _ => 0xF00F
  | .shl _ => 0xF00F
  | .sneReg _ _ => 0xF000
  | .ldI _ => 0xF000
  | .jpV0 _ => 0xF000
  | .rnd _ _ => 0xF000
  | .drw _ _ _ => 0xF000
  | .skp _ => 0xF0FF
  | .sknp _ => 0xF0FF
  | .ldVxDt _ => 0xF0FF
  | .ldVxK _ => 0xF0FF
  | .ldDtVx _ => 0xF0FF
  | .ldStVx _ => 0xF0FF
  | .addI _ => 0xF0FF
  | .ldF _ => 0xF0FF
  | .ldB _ => 0xF0FF
  | .stRegs _ => 0xF0FF
  | .ldRegs _ => 0xF0FF

/-- The "match" of the instruction's row in spec/opcode_table.json. -/
def pattern : Instr → Word
  | .cls => 0x00E0
  | .ret => 0x00EE
  | .jp _ => 0x1000
  | .call _ => 0x2000
  | .seImm _ _ => 0x3000
  | .sneImm _ _ => 0x4000
  | .seReg _ _ => 0x5000
  | .ldImm _ _ => 0x6000
  | .addImm _ _ => 0x7000
  | .ldReg _ _ => 0x8000
  | .orReg _ _ => 0x8001
  | .andReg _ _ => 0x8002
  | .xorReg _ _ => 0x8003
  | .addReg _ _ => 0x8004
  | .sub _ _ => 0x8005
  | .shr _ => 0x8006
  | .subn _ _ => 0x8007
  | .shl _ => 0x800E
  | .sneReg _ _ => 0x9000
  | .ldI _ => 0xA000
  | .jpV0 _ => 0xB000
  | .rnd _ _ => 0xC000
  | .drw _ _ _ => 0xD000
  | .skp _ => 0xE09E
  | .sknp _ => 0xE0A1
  | .ldVxDt _ => 0xF007
  | .ldVxK _ => 0xF00A
  | .ldDtVx _ => 0xF015
  | .ldStVx _ => 0xF018
  | .addI _ => 0xF01E
  | .ldF _ => 0xF029
  | .ldB _ => 0xF033
  | .stRegs _ => 0xF055
  | .ldRegs _ => 0xF065

/-- The instruction's word is in its own row. -/
def Statement (i : Instr) : Prop := encode i &&& mask i = pattern i

theorem packNNN_and (t : BitVec 4) (a : BitVec 12) : packNNN t a &&& 0xF000 = packNNN t 0 := by
  apply BitVec.eq_of_toNat_eq
  have := a.isLt
  rw [and_F000, toNat_packNNN, toNat_packNNN]; simp; omega

theorem packXNN_and (t : BitVec 4) (x : Reg) (nn : Byte) : packXNN t x nn &&& 0xF000 = packNNN t 0 := by
  apply BitVec.eq_of_toNat_eq
  have := nn.isLt
  have := x.isLt
  rw [and_F000, toNat_packXNN, toNat_packNNN]; simp; omega

theorem packXNN_and_low (t : BitVec 4) (x : Reg) (nn : Byte) : packXNN t x nn &&& 0xF0FF = packXNN t 0 nn := by
  apply BitVec.eq_of_toNat_eq
  have := nn.isLt
  have := x.isLt
  rw [and_F0FF, toNat_packXNN, toNat_packXNN]; simp; omega

theorem packXYN_and (t : BitVec 4) (x y : Reg) (n : BitVec 4) : packXYN t x y n &&& 0xF000 = packNNN t 0 := by
  apply BitVec.eq_of_toNat_eq
  have := n.isLt
  have := x.isLt
  have := y.isLt
  rw [and_F000, toNat_packXYN, toNat_packNNN]; simp; omega

theorem packXYN_and_low (t : BitVec 4) (x y : Reg) (n : BitVec 4) :
    packXYN t x y n &&& 0xF00F = packXYN t 0 0 n := by
  apply BitVec.eq_of_toNat_eq
  have := n.isLt
  have := x.isLt
  have := y.isLt
  rw [and_F00F, toNat_packXYN, toNat_packXYN]; simp; omega

theorem cls : Statement .cls := (by decide : (0x00E0 : Word) &&& 0xF0FF = 0x00E0)
theorem ret : Statement .ret := (by decide : (0x00EE : Word) &&& 0xF0FF = 0x00EE)
theorem jp (nnn : BitVec 12) : Statement (.jp nnn) := packNNN_and 0x1 nnn
theorem call (nnn : BitVec 12) : Statement (.call nnn) := packNNN_and 0x2 nnn
theorem seImm (x : Reg) (nn : Byte) : Statement (.seImm x nn) := packXNN_and 0x3 x nn
theorem sneImm (x : Reg) (nn : Byte) : Statement (.sneImm x nn) := packXNN_and 0x4 x nn
theorem seReg (x : Reg) (y : Reg) : Statement (.seReg x y) := packXYN_and 0x5 x y 0x0
theorem ldImm (x : Reg) (nn : Byte) : Statement (.ldImm x nn) := packXNN_and 0x6 x nn
theorem addImm (x : Reg) (nn : Byte) : Statement (.addImm x nn) := packXNN_and 0x7 x nn
theorem ldReg (x : Reg) (y : Reg) : Statement (.ldReg x y) := packXYN_and_low 0x8 x y 0x0
theorem orReg (x : Reg) (y : Reg) : Statement (.orReg x y) := packXYN_and_low 0x8 x y 0x1
theorem andReg (x : Reg) (y : Reg) : Statement (.andReg x y) := packXYN_and_low 0x8 x y 0x2
theorem xorReg (x : Reg) (y : Reg) : Statement (.xorReg x y) := packXYN_and_low 0x8 x y 0x3
theorem addReg (x : Reg) (y : Reg) : Statement (.addReg x y) := packXYN_and_low 0x8 x y 0x4
theorem sub (x : Reg) (y : Reg) : Statement (.sub x y) := packXYN_and_low 0x8 x y 0x5
theorem shr (x : Reg) : Statement (.shr x) := packXYN_and_low 0x8 x 0 0x6
theorem subn (x : Reg) (y : Reg) : Statement (.subn x y) := packXYN_and_low 0x8 x y 0x7
theorem shl (x : Reg) : Statement (.shl x) := packXYN_and_low 0x8 x 0 0xE
theorem sneReg (x : Reg) (y : Reg) : Statement (.sneReg x y) := packXYN_and 0x9 x y 0x0
theorem ldI (nnn : BitVec 12) : Statement (.ldI nnn) := packNNN_and 0xA nnn
theorem jpV0 (nnn : BitVec 12) : Statement (.jpV0 nnn) := packNNN_and 0xB nnn
theorem rnd (x : Reg) (nn : Byte) : Statement (.rnd x nn) := packXNN_and 0xC x nn
theorem drw (x : Reg) (y : Reg) (n : BitVec 4) : Statement (.drw x y n) := packXYN_and 0xD x y n
theorem skp (x : Reg) : Statement (.skp x) := packXNN_and_low 0xE x 0x9E
theorem sknp (x : Reg) : Statement (.sknp x) := packXNN_and_low 0xE x 0xA1
theorem ldVxDt (x : Reg) : Statement (.ldVxDt x) := packXNN_and_low 0xF x 0x07
theorem ldVxK (x : Reg) : Statement (.ldVxK x) := packXNN_and_low 0xF x 0x0A
theorem ldDtVx (x : Reg) : Statement (.ldDtVx x) := packXNN_and_low 0xF x 0x15
theorem ldStVx (x : Reg) : Statement (.ldStVx x) := packXNN_and_low 0xF x 0x18
theorem addI (x : Reg) : Statement (.addI x) := packXNN_and_low 0xF x 0x1E
theorem ldF (x : Reg) : Statement (.ldF x) := packXNN_and_low 0xF x 0x29
theorem ldB (x : Reg) : Statement (.ldB x) := packXNN_and_low 0xF x 0x33
theorem stRegs (x : Reg) : Statement (.stRegs x) := packXNN_and_low 0xF x 0x55
theorem ldRegs (x : Reg) : Statement (.ldRegs x) := packXNN_and_low 0xF x 0x65

end Sys2Proof.Laws.TableRow
end

