-- ==== Sys2Proof/Tests/Slice0.lean ====
section
/-!
SUPPORT. The model's own tests. The expected results are the spec's: the source's examples S1 to S12 and the vectors V1
to V104 of 95_test_vectors.md, and the table's "encoding" strings. The start state is that file's: `new()`, `initialize()` with the
recommended FONTSET, CLOCK_HZ = 600 (DIV = 10), FX0A_LAST_KEY = 14, and a ROM at 0x200. Each test runs one step.
The theorems `witness_<Name>` show a state and operands that meet all the hypotheses of the obligation <Name>.
-/

namespace Sys2Proof.Tests

open Sys2Proof Sys2Proof.Machine Sys2Proof.Claims

/-! ### Helpers -/

def cfg600 : Config := { clockAbove60 := 540, lastKey := .key14, fontset := Config.recommendedFontset }

def cfg60 : Config := { cfg600 with clockAbove60 := 0 }

def cfgKey15 : Config := { cfg600 with lastKey := .key15 }

/-- The start state with a ROM loaded. The font bytes, which none of these tests reads, are left out to keep them fast. -/
def boot (rom : List Byte) : State :=
  { hostNew cfg600 with pc := 0x200, mem := Memory.writeBlock [] 0x200 rom }

/-- One byte of MEM set. -/
def poke (s : State) (a : Nat) (b : Byte) : State := s.setMem (Memory.write s.mem a b)

/-- Some keys pressed, the others not. -/
def pressed (s : State) (ks : List (Fin 16)) : State :=
  s.setKeys (Vector.ofFn (fun k : Fin 16 => ks.contains k))

def screenCell (s : State) (px py : Nat) : Byte := Memory.read s.vram (py * 64 + px)

/-- What a function of the next state gives, or none where there is no next state. -/
def after {α : Type} (o : Host.Outcome State Fault Refusal) (f : State → α) : Option α :=
  match o with
  | .next t => some (f t)
  | _ => none

def faultOf (o : Host.Outcome State Fault Refusal) : Option Fault :=
  match o with
  | .fault e => some e
  | _ => none

/-! ### WellFormed and the host's configuration (R5, R245, U8, R276) -/

def goodParams : HostParams :=
  { clockHz := 600, fx0aLastKey := 14, fontset := Config.recommendedFontset.toList }

theorem test_wf_accepts : goodParams.wf = true := by decide

theorem test_wf_refuses_clock_below_60 : ({ goodParams with clockHz := 59 } : HostParams).clockOk = false := by decide

theorem test_wf_refuses_last_key_13 : ({ goodParams with fx0aLastKey := 13 } : HostParams).lastKeyOk = false := by decide

theorem test_wf_refuses_short_fontset :
    ({ goodParams with fontset := List.replicate 79 0 } : HostParams).fontsetOk = false := by decide

theorem test_configure_refuses : hostConfigure { goodParams with clockHz := 59 } = none := by decide

theorem test_configure_div_is_1_at_60_hz :
    (hostConfigure { goodParams with clockHz := 60 }).map Config.div = some 1 := by decide

theorem test_romFits_refuses_3585 : romFits (List.replicate 3585 0) = false := by
  simp only [romFits, List.length_replicate]; decide

theorem test_romFits_accepts_3584 : romFits (List.replicate 3584 0) = true := by
  simp only [romFits, List.length_replicate]; decide

/-! ### Memory's canonical form -/

theorem test_write_zero_unlists : Memory.write [(5, 7)] 5 0 = [] := by decide

theorem test_write_keeps_order : Memory.write [(5, 7)] 2 9 = [(2, 9), (5, 7)] := by decide

theorem test_wf_refuses_disorder : Memory.wf [(5, 7), (2, 9)] = false := by decide

theorem test_wf_refuses_listed_zero : Memory.wf [(5, 0)] = false := by decide

theorem test_wf_refuses_address_4096 : Memory.wf [(4096, 1)] = false := by decide

theorem test_vramWf_refuses_other_values : Memory.vramWf [(5, 0x80)] = false := by decide

/-! ### Decoding: each word written out from the "encoding" of spec/opcode_table.json (x = A, y = 5 unless said) -/

/-- 00E0 with the ignored bits 1101 -/
theorem test_decode_cls : decode 0b0000110111100000 = .ok (.cls) := by decide

/-- 00EE with the ignored bits 0110 -/
theorem test_decode_ret : decode 0b0000011011101110 = .ok (.ret) := by decide

theorem test_decode_jp : decode 0b0001101010111100 = .ok (.jp 0xABC) := by decide

theorem test_decode_call : decode 0b0010001100000001 = .ok (.call 0x301) := by decide

theorem test_decode_seImm : decode 0b0011101001000010 = .ok (.seImm 0xA 0x42) := by decide

theorem test_decode_sneImm : decode 0b0100101001000010 = .ok (.sneImm 0xA 0x42) := by decide

/-- ignored bits 1101 -/
theorem test_decode_seReg : decode 0b0101101001011101 = .ok (.seReg 0xA 5) := by decide

theorem test_decode_ldImm : decode 0b0110101000000101 = .ok (.ldImm 0xA 0x05) := by decide

theorem test_decode_addImm : decode 0b0111101011111111 = .ok (.addImm 0xA 0xFF) := by decide

theorem test_decode_ldReg : decode 0b1000101001010000 = .ok (.ldReg 0xA 5) := by decide

theorem test_decode_orReg : decode 0b1000101001010001 = .ok (.orReg 0xA 5) := by decide

theorem test_decode_andReg : decode 0b1000101001010010 = .ok (.andReg 0xA 5) := by decide

theorem test_decode_xorReg : decode 0b1000101001010011 = .ok (.xorReg 0xA 5) := by decide

theorem test_decode_addReg : decode 0b1000101001010100 = .ok (.addReg 0xA 5) := by decide

theorem test_decode_sub : decode 0b1000101001010101 = .ok (.sub 0xA 5) := by decide

/-- ignored bits 0101 -/
theorem test_decode_shr : decode 0b1000101001010110 = .ok (.shr 0xA) := by decide

theorem test_decode_subn : decode 0b1000101001010111 = .ok (.subn 0xA 5) := by decide

/-- ignored bits 0101 -/
theorem test_decode_shl : decode 0b1000101001011110 = .ok (.shl 0xA) := by decide

/-- ignored bits 0111 -/
theorem test_decode_sneReg : decode 0b1001101001010111 = .ok (.sneReg 0xA 5) := by decide

theorem test_decode_ldI : decode 0b1010000100100011 = .ok (.ldI 0x123) := by decide

theorem test_decode_jpV0 : decode 0b1011111111110000 = .ok (.jpV0 0xFF0) := by decide

theorem test_decode_rnd : decode 0b1100101000001111 = .ok (.rnd 0xA 0x0F) := by decide

theorem test_decode_drw : decode 0b1101101001010011 = .ok (.drw 0xA 5 3) := by decide

theorem test_decode_skp : decode 0b1110101010011110 = .ok (.skp 0xA) := by decide

theorem test_decode_sknp : decode 0b1110101010100001 = .ok (.sknp 0xA) := by decide

theorem test_decode_ldVxDt : decode 0b1111101000000111 = .ok (.ldVxDt 0xA) := by decide

theorem test_decode_ldVxK : decode 0b1111101000001010 = .ok (.ldVxK 0xA) := by decide

theorem test_decode_ldDtVx : decode 0b1111101000010101 = .ok (.ldDtVx 0xA) := by decide

theorem test_decode_ldStVx : decode 0b1111101000011000 = .ok (.ldStVx 0xA) := by decide

theorem test_decode_addI : decode 0b1111101000011110 = .ok (.addI 0xA) := by decide

theorem test_decode_ldF : decode 0b1111101000101001 = .ok (.ldF 0xA) := by decide

theorem test_decode_ldB : decode 0b1111101000110011 = .ok (.ldB 0xA) := by decide

theorem test_decode_stRegs : decode 0b1111101001010101 = .ok (.stRegs 0xA) := by decide

theorem test_decode_ldRegs : decode 0b1111101001100101 = .ok (.ldRegs 0xA) := by decide

/-- R75: 0XE0 decodes to CLS and 0XEE to RET, whatever op[11:8]. -/
theorem test_decode0_every_word :
    ∀ x : Fin 16, decode (BitVec.ofNat 16 (x.val * 256 + 0xE0)) = .ok .cls ∧
      decode (BitVec.ofNat 16 (x.val * 256 + 0xEE)) = .ok .ret := by decide

/-- S12, V2, V3, V4, V5 -/
theorem test_decode_illegal :
    decode 0x0000 = .error ⟨0x0000⟩ ∧ decode 0x00E1 = .error ⟨0x00E1⟩ ∧ decode 0x0123 = .error ⟨0x0123⟩ ∧
    decode 0x0F0E = .error ⟨0x0F0E⟩ ∧ decode 0x800F = .error ⟨0x800F⟩ ∧ decode 0xE19F = .error ⟨0xE19F⟩ ∧
    decode 0xF016 = .error ⟨0xF016⟩ := by decide

theorem test_encode_clears_ignored_bits : encode (.shr 0xA) = 0x8A06 ∧ encode (.seReg 0xA 5) = 0x5A50 := by decide

theorem test_decodeTableWord : decodeTableWord 16 0x6A05 = some (.ldImm 0xA 0x05) := by decide

/-- The first step after reset runs a word placed where it is fetched. -/
theorem test_withFetchWord :
    after (step (State.reset.withFetchWord 16 0x6A05)) (fun t => (t.getV 0xA, t.pc)) = some (0x05, 2) := by decide

/-- V9, V12: the last word of memory, and an odd PC. -/
theorem test_fetch_edge_and_odd :
    after (step { poke (poke (boot []) 0xFFE 0x61) 0xFFF 0x05 with pc := 0xFFE })
      (fun t => (t.getV 1, t.pc)) = some (5, 0x1000) ∧
    after (step { poke (poke (boot []) 0x203 0x60) 0x204 0x07 with pc := 0x203 })
      (fun t => (t.getV 0, t.pc)) = some (7, 0x205) := by decide

/-- V10, V11 -/
theorem test_fetch_out_of_bounds :
    faultOf (step { boot [] with pc := 0xFFF }) = some (.memoryOutOfBounds .fetch 4096) ∧
    faultOf (step { boot [] with pc := 0x1000 }) = some (.memoryOutOfBounds .fetch 4096) ∧
    faultOf (step { boot [] with pc := 0x10FE }) = some (.memoryOutOfBounds .fetch 0x10FE) := by decide

/-- V8 -/
theorem test_reset_first_step : faultOf (step State.reset) = some (.unknownOpcode 0x0000) := by decide

/-! ### One step of each instruction -/

/-- S2, V1, V87 -/
theorem test_cls :
    after (step { boot [0x01, 0xE0] with vram := [(0, 0xFF), (2047, 0xFF)] })
      (fun t => (t.vram, t.drawFlag, t.pc)) = some ([], false, 0x202) := by decide

/-- V22's second cycle: PC is the popped value, the slot stays -/
theorem test_ret :
    after (step { boot [0x00, 0xEE] with sp := 1, stack := (Vector.replicate 16 0).set 0 0x304 })
      (fun t => (t.pc, t.sp, t.stack[0])) = some (0x304, 0, 0x304) := by decide

/-- V23 -/
theorem test_ret_underflow :
    faultOf (step (boot [0x00, 0xEE])) = some .stackUnderflow := by decide

/-- V20 -/
theorem test_jp :
    after (step (boot [0x1A, 0xBC])) (fun t => t.pc) = some 0xABC := by decide

/-- V21 -/
theorem test_call :
    after (step (boot [0x23, 0x00])) (fun t => (t.stack[0], t.sp, t.pc)) = some (0x202, 1, 0x300) := by decide

/-- V24 -/
theorem test_call_overflow :
    faultOf (step { boot [0x23, 0x00] with sp := 16 }) = some .stackOverflow := by decide

/-- V25, V26 -/
theorem test_jpV0 :
    after (step ((boot [0xB2, 0x00]).setV 0 3)) (fun t => t.pc) = some 0x203 ∧
    after (step ((boot [0xBF, 0xFF]).setV 0 0xFF)) (fun t => t.pc) = some 0x10FE := by decide

/-- V27 -/
theorem test_seImm :
    after (step ((boot [0x31, 0x42]).setV 1 0x42)) (fun t => t.pc) = some 0x204 ∧
    after (step ((boot [0x31, 0x43]).setV 1 0x42)) (fun t => t.pc) = some 0x202 := by decide

/-- V28 -/
theorem test_sneImm :
    after (step ((boot [0x41, 0x42]).setV 1 0x42)) (fun t => t.pc) = some 0x202 ∧
    after (step ((boot [0x41, 0x43]).setV 1 0x42)) (fun t => t.pc) = some 0x204 := by decide

/-- V6, V29 -/
theorem test_seReg :
    after (step (((boot [0x51, 0x21]).setV 1 4).setV 2 4)) (fun t => t.pc) = some 0x204 ∧
    after (step (((boot [0x51, 0x20]).setV 1 4).setV 2 5)) (fun t => t.pc) = some 0x202 := by decide

/-- V7, V29 -/
theorem test_sneReg :
    after (step (((boot [0x91, 0x27]).setV 1 4).setV 2 5)) (fun t => t.pc) = some 0x204 ∧
    after (step (((boot [0x91, 0x20]).setV 1 4).setV 2 4)) (fun t => t.pc) = some 0x202 := by decide

/-- V30, V31 -/
theorem test_skp :
    after (step (pressed ((boot [0xE1, 0x9E]).setV 1 5) [5])) (fun t => t.pc) = some 0x204 ∧
    after (step ((boot [0xE1, 0x9E]).setV 1 16)) (fun t => t.pc) = some 0x202 := by decide

/-- V30, V31 -/
theorem test_sknp :
    after (step (pressed ((boot [0xE1, 0xA1]).setV 1 5) [5])) (fun t => t.pc) = some 0x202 ∧
    after (step ((boot [0xE1, 0xA1]).setV 1 16)) (fun t => t.pc) = some 0x204 := by decide

/-- S3 -/
theorem test_ldImm :
    after (step (boot [0x6A, 0x05])) (fun t => (t.getV 0xA, t.pc)) = some (0x05, 0x202) := by decide

/-- S4, V40 -/
theorem test_addImm :
    after (step (((boot [0x70, 0x01]).setV 0 0xFF).setV VF 0x5A))
      (fun t => (t.getV 0, t.getV VF, t.pc)) = some (0x00, 0x5A, 0x202) ∧
    after (step ((boot [0x7F, 0xFF]).setV VF 1)) (fun t => t.getV VF) = some 0x00 := by decide

/-- V41 -/
theorem test_ldReg :
    after (step (((boot [0x81, 0x20]).setV 1 0x0F).setV 2 0xF0)) (fun t => (t.getV 1, t.getV VF)) = some (0xF0, 0) := by decide

/-- V41 -/
theorem test_orReg :
    after (step (((boot [0x81, 0x21]).setV 1 0x0F).setV 2 0xF0)) (fun t => (t.getV 1, t.getV VF)) = some (0xFF, 0) := by decide

/-- V41 -/
theorem test_andReg :
    after (step (((boot [0x81, 0x22]).setV 1 0x0F).setV 2 0xF0)) (fun t => (t.getV 1, t.getV VF)) = some (0x00, 0) := by decide

/-- V41 -/
theorem test_xorReg :
    after (step (((boot [0x81, 0x23]).setV 1 0x0F).setV 2 0xF0)) (fun t => (t.getV 1, t.getV VF)) = some (0xFF, 0) := by decide

/-- S5, V43 -/
theorem test_addReg :
    after (step (((boot [0x81, 0x24]).setV 1 0xFF).setV 2 0x01)) (fun t => (t.getV 1, t.getV VF)) = some (0x00, 1) ∧
    after (step (((boot [0x81, 0x24]).setV 1 0x7F).setV 2 0x80)) (fun t => (t.getV 1, t.getV VF)) = some (0xFF, 0) := by decide

/-- V44: the flag is written last -/
theorem test_addReg_on_VF :
    after (step ((boot [0x8F, 0xF4]).setV VF 0x80)) (fun t => t.getV VF) = some 1 := by decide

/-- S6, V45, V46 -/
theorem test_sub :
    after (step (((boot [0x81, 0x25]).setV 1 0x01).setV 2 0x02)) (fun t => (t.getV 1, t.getV VF)) = some (0xFF, 0) ∧
    after (step (((boot [0x81, 0x25]).setV 1 5).setV 2 3)) (fun t => (t.getV 1, t.getV VF)) = some (2, 1) ∧
    after (step (((boot [0x81, 0x25]).setV 1 5).setV 2 5)) (fun t => (t.getV 1, t.getV VF)) = some (0, 0) := by decide

/-- V47, V49, V48 -/
theorem test_sub_on_VF :
    after (step (((boot [0x8F, 0x15]).setV VF 5).setV 1 3)) (fun t => t.getV VF) = some 1 ∧
    after (step ((boot [0x8F, 0xF5]).setV VF 7)) (fun t => t.getV VF) = some 0 ∧
    after (step (((boot [0x81, 0xF5]).setV 1 5).setV VF 3)) (fun t => (t.getV 1, t.getV VF)) = some (2, 1) := by decide

/-- V50 -/
theorem test_shr :
    after (step (((boot [0x81, 0x26]).setV 1 0x05).setV 2 0xAA)) (fun t => (t.getV 1, t.getV VF)) = some (0x02, 1) := by decide

/-- V51 -/
theorem test_shr_on_VF :
    after (step ((boot [0x8F, 0x06]).setV VF 3)) (fun t => t.getV VF) = some 1 ∧
    after (step ((boot [0x8F, 0x06]).setV VF 2)) (fun t => t.getV VF) = some 0 := by decide

/-- V52, V53, V54 -/
theorem test_subn :
    after (step (((boot [0x81, 0x27]).setV 1 3).setV 2 5)) (fun t => (t.getV 1, t.getV VF)) = some (2, 1) ∧
    after (step (((boot [0x81, 0x27]).setV 1 5).setV 2 5)) (fun t => (t.getV 1, t.getV VF)) = some (0, 0) ∧
    after (step (((boot [0x81, 0x27]).setV 1 5).setV 2 3)) (fun t => (t.getV 1, t.getV VF)) = some (0xFE, 0) := by decide

/-- V55 -/
theorem test_shl :
    after (step ((boot [0x81, 0x1E]).setV 1 0x81)) (fun t => (t.getV 1, t.getV VF)) = some (0x02, 1) := by decide

/-- V56 -/
theorem test_shl_on_VF :
    after (step ((boot [0x8F, 0x0E]).setV VF 0x81)) (fun t => t.getV VF) = some 1 := by decide

/-- V57: the draw is the free value at the count of draws, masked, and the count moves on, so that the next draw is
another value of it. Nothing here can evaluate the draw. -/
theorem test_rnd :
    after (step { boot [0xC1, 0x0F] with draws := 3 }) (fun t => t.getV 1) = some (Config.freeByte 3 &&& 0x0F) ∧
    after (step { boot [0xC1, 0x0F] with draws := 3 }) (fun t => (t.pc, t.draws)) = some (0x202, 4) := ⟨rfl, by decide⟩

/-- V57's second half: with NN = 0 the result is 0 whatever the draw. -/
theorem test_rnd_masks_all : after (step ((boot [0xC1, 0x00]).setV 1 0x55)) (fun t => t.getV 1) = some 0 := by
  show some (Config.freeByte 0 &&& 0) = some 0
  simp

/-- S7 -/
theorem test_ldI :
    after (step (boot [0xA1, 0x23])) (fun t => (t.i, t.pc)) = some (0x123, 0x202) := by decide

/-- V60, V61 -/
theorem test_addI :
    after (step { (boot [0xF1, 0x1E]).setV 1 1 with i := 0x0FFF }) (fun t => t.i) = some 0x1000 ∧
    after (step { (boot [0xF1, 0x1E]).setV 1 2 with i := 0xFFFF }) (fun t => (t.i, t.getV VF)) = some (0x0001, 0) := by decide

/-- V62, V63 -/
theorem test_ldF :
    after (step ((boot [0xF1, 0x29]).setV 1 0xA)) (fun t => t.i) = some 0x82 ∧
    after (step ((boot [0xF1, 0x29]).setV 1 0x10)) (fun t => t.i) = some 0xA0 := by decide

/-- S9, V64, V66 -/
theorem test_ldB :
    after (step { (boot [0xF1, 0x33]).setV 1 157 with i := 0x300 })
      (fun t => (Memory.readBlock t.mem 0x300 3, t.i)) = some ([1, 5, 7], 0x300) ∧
    after (step { (boot [0xF1, 0x33]).setV 1 255 with i := 0x300 })
      (fun t => Memory.readBlock t.mem 0x300 3) = some [2, 5, 5] ∧
    after (step { (boot [0xF0, 0x33]).setV 0 1 with i := 0xFFD })
      (fun t => Memory.readBlock t.mem 0xFFD 3) = some [0, 0, 1] := by decide

/-- V67 -/
theorem test_ldB_out_of_bounds :
    faultOf (step { (boot [0xF1, 0x33]).setV 1 1 with i := 0xFFE }) = some (.memoryOutOfBounds .write 4096) := by decide

/-- V71, V68 -/
theorem test_stRegs :
    after (step { (((boot [0xF2, 0x55]).setV 0 1).setV 1 2).setV 2 3 with i := 0x300 })
      (fun t => (Memory.readBlock t.mem 0x300 4, t.i)) = some ([1, 2, 3, 0], 0x300) ∧
    after (step { (boot [0xF0, 0x55]).setV 0 9 with i := 0xFFF }) (fun t => Memory.read t.mem 0xFFF) = some 9 := by decide

/-- V69, V70 -/
theorem test_stRegs_out_of_bounds :
    faultOf (step { boot [0xF1, 0x55] with i := 0xFFF }) = some (.memoryOutOfBounds .write 4096) ∧
    faultOf (step { boot [0xF0, 0x55] with i := 0x1000 }) = some (.memoryOutOfBounds .write 4096) := by decide

/-- V72 -/
theorem test_ldRegs :
    after (step { (boot [0xFF, 0x65]).setMem (Memory.writeBlock (boot [0xFF, 0x65]).mem 0x300
        ((List.range 16).map (fun k => BitVec.ofNat 8 (0x10 + k)))) with i := 0x300 })
      (fun t => (t.getV 0, t.getV 7, t.getV VF, t.i)) = some (0x10, 0x17, 0x1F, 0x300) := by decide

/-- R175 at its bound -/
theorem test_ldRegs_out_of_bounds :
    faultOf (step { boot [0xF1, 0x65] with i := 0xFFF }) = some (.memoryOutOfBounds .read 4096) ∧
    after (step { boot [0xF0, 0x65] with i := 0xFFF }) (fun t => t.pc) = some 0x202 := by decide

/-- V81, V82, V83 -/
theorem test_drw_wraps_and_clips :
    after (step { poke (((boot [0xD0, 0x11]).setV 0 70).setV 1 40) 0x300 0x80 with i := 0x300 })
      (fun t => (t.vram, t.getV VF)) = some ([(8 * 64 + 6, 0xFF)], 0) ∧
    after (step { poke ((boot [0xD0, 0x11]).setV 0 60) 0x300 0xFF with i := 0x300 })
      (fun t => (t.vram, t.getV VF)) = some ([(60, 0xFF), (61, 0xFF), (62, 0xFF), (63, 0xFF)], 0) ∧
    after (step { poke (poke (poke ((boot [0xD0, 0x13]).setV 1 30) 0x300 0x80) 0x301 0x80) 0x302 0x80 with i := 0x300 })
      (fun t => t.vram) = some [(30 * 64, 0xFF), (31 * 64, 0xFF)] := by decide

/-- V85, V86, V80 -/
theorem test_drw_collision_and_edges :
    after (step { poke (boot [0xD0, 0x01]) 0x300 0x80 with i := 0x300, vram := [(0, 0xFF), (1, 0xFF)] })
      (fun t => (t.vram, t.getV VF, t.drawFlag)) = some ([(1, 0xFF)], 1, true) ∧
    after (step { poke ((boot [0xDF, 0x01]).setV VF 10) 0x300 0xC0 with i := 0x300 })
      (fun t => (t.vram, t.getV VF)) = some ([(10, 0xFF), (11, 0xFF)], 0) ∧
    after (step { (boot [0xD0, 0x00]).setV VF 1 with i := 0xFFFF })
      (fun t => (t.vram, t.getV VF, t.drawFlag)) = some ([], 0, true) := by decide

/-- V84 -/
theorem test_drw_out_of_bounds :
    faultOf (step { boot [0xD0, 0x12] with i := 0xFFF }) = some (.memoryOutOfBounds .read 4096) := by decide

/-- V90 -/
theorem test_ldVxDt :
    after (step { boot [0xF1, 0x07] with dt := 0x3C }) (fun t => (t.getV 1, t.dt, t.divcnt)) = some (0x3C, 0x3C, 1) := by decide

/-- V91 -/
theorem test_ldDtVx :
    after (step { (boot [0xF0, 0x15]).setV 0 1 with cfg := cfg60 }) (fun t => (t.dt, t.divcnt)) = some (0, 0) := by decide

/-- V92, V93 -/
theorem test_ldStVx :
    after (step { (boot [0xF0, 0x18]).setV 0 1 with cfg := cfg60 }) (fun t => (t.st, t.soundEvents)) = some (0, 1) ∧
    after (step ((boot [0xF0, 0x18]).setV 0 1)) (fun t => (t.st, t.soundEvents, t.divcnt)) = some (1, 0, 1) := by decide

/-- V96, V99, V98 -/
theorem test_ldVxK :
    after (step (pressed (boot [0xF3, 0x0A]) [14])) (fun t => (t.getV 3, t.pc)) = some (14, 0x202) ∧
    after (step (pressed (boot [0xF3, 0x0A]) [5, 9])) (fun t => (t.getV 3, t.pc)) = some (5, 0x202) ∧
    after (step { pressed (boot [0xF3, 0x0A]) [15] with cfg := cfgKey15 })
      (fun t => (t.getV 3, t.pc)) = some (15, 0x202) := by decide

/-- V97 -/
theorem test_ldVxK_waits :
    after (step (pressed (boot [0xF3, 0x0A]) [15])) (fun t => (t.getV 3, t.pc, t.divcnt)) = some (0, 0x200, 1) := by decide

/-! ### The timer tick and the host's operations -/

/-- S10: the 9th cycle and the 10th -/
theorem test_tick_decrements_on_wrap :
    after (step { boot [0x12, 0x00] with dt := 5, divcnt := 8 }) (fun t => (t.dt, t.divcnt)) = some (5, 9) ∧
    after (step { boot [0x12, 0x00] with dt := 5, divcnt := 9 }) (fun t => (t.dt, t.divcnt)) = some (4, 0) := by decide

/-- V95: no event while ST stays 0 -/
theorem test_tick_stopped_sound_timer :
    after (step { boot [0x12, 0x00] with divcnt := 9 }) (fun t => (t.st, t.soundEvents)) = some (0, 0) := by decide

/-- S11, V102 -/
theorem test_loadRom :
    (hostLoadRom [0xAA, 0x00, 0xBB] (hostNew cfg600)).toOption.map (fun t => (Memory.readBlock t.mem 0x1FF 5, t.pc)) =
      some ([0, 0xAA, 0x00, 0xBB, 0], 0) ∧
    hostLoadRom [] (hostNew cfg600) = .ok (hostNew cfg600) := by decide

/-- R42, R271: glyph 0 and PC -/
theorem test_initialize :
    (hostInitialize (hostNew cfg600)).pc = 0x200 ∧
    Memory.readBlock (hostInitialize (hostNew cfg600)).mem 0x4F 6 = [0, 0xF0, 0x90, 0x90, 0x90, 0xF0] ∧
    Memory.readBlock (hostInitialize (hostNew cfg600)).mem 0x9F 2 = [0x80, 0] := by decide

/-- V103 -/
theorem test_takeSoundEvents :
    (hostTakeSoundEvents { hostNew cfg600 with soundEvents := 2 }).1 = 2 ∧
    (hostTakeSoundEvents (hostTakeSoundEvents { hostNew cfg600 with soundEvents := 2 }).2).1 = 0 := by decide

/-- V104 -/
theorem test_error_repeats :
    hostExecuteCycle (boot [0x00, 0xEE]) = (boot [0x00, 0xEE], .cycleError .stackUnderflow) := by decide

/-! ### Witnesses: the hypotheses of each obligation can be met, each clause at a value where the clauses meet -/

theorem witness_EncodeOfDecode :
    decode 0x01E0 = .ok .cls ∧ decode 0x8FFE = .ok (.shl 0xF) := by decide

theorem witness_DecodeMatchesOpcodeTable :
    ("CLS", 0xF0FF, 0x00E0) ∈ opcodeTable ∧ (0x01E0 : Word) &&& 0xF0FF = 0x00E0 ∧ decode 0x01E0 = .ok .cls ∧
      mnemonic .cls = "CLS" := by decide

theorem witness_IllegalWordsAreExactlyThese :
    IllegalWord 0x00E1 ∧ IllegalWord 0x8008 ∧ IllegalWord 0xE19F ∧ IllegalWord 0xF066 ∧ ¬ IllegalWord 0x00E0 ∧
      ¬ IllegalWord 0x8007 ∧ ¬ IllegalWord 0xE19E ∧ ¬ IllegalWord 0xF065 ∧ ¬ IllegalWord 0x1000 := by
  unfold IllegalWord; refine ⟨?_, ?_, ?_, ?_, ?_, ?_, ?_, ?_, ?_⟩ <;> decide

/-- A state about to run one instruction at the last place where one fits. -/
def lastPlace (hi lo : Byte) : State := { poke (poke (boot []) 0xFFE hi) 0xFFF lo with pc := 0xFFE }

theorem witness_StepRunsTheDecodedInstruction :
    (lastPlace 0x61 0x05).pc.toNat + 1 < 4096 ∧
    decode (wordOfBytes (Memory.read (lastPlace 0x61 0x05).mem (lastPlace 0x61 0x05).pc.toNat)
      (Memory.read (lastPlace 0x61 0x05).mem ((lastPlace 0x61 0x05).pc.toNat + 1))) = .ok (.ldImm 1 5) ∧
    after (exec (.ldImm 1 5) (lastPlace 0x61 0x05)) (fun t => t.pc) = some 0x1000 := by decide

theorem witness_StepRunsTheDecodedInstruction_fault :
    (lastPlace 0x00 0xEE).pc.toNat + 1 < 4096 ∧
    decode (wordOfBytes (Memory.read (lastPlace 0x00 0xEE).mem (lastPlace 0x00 0xEE).pc.toNat)
      (Memory.read (lastPlace 0x00 0xEE).mem ((lastPlace 0x00 0xEE).pc.toNat + 1))) = .ok .ret ∧
    faultOf (exec .ret (lastPlace 0x00 0xEE)) = some .stackUnderflow := by decide

theorem witness_FetchIsBigEndian :
    ({ boot [] with pc := 4094 } : State).pc.toNat + 1 < 4096 ∧ ({ boot [] with pc := 0x203 } : State).pc.toNat + 1 < 4096 := by decide

theorem witness_FetchErrorsEndTheCycle :
    ({ boot [] with pc := 4095 } : State).pc.toNat = 4095 ∧ 4096 ≤ ({ boot [] with pc := 4096 } : State).pc.toNat ∧
    4096 ≤ ({ boot [] with pc := 0xFFFF } : State).pc.toNat ∧ (lastPlace 0x80 0x0F).pc.toNat + 1 < 4096 ∧
    IllegalWord (wordOfBytes (Memory.read (lastPlace 0x80 0x0F).mem (lastPlace 0x80 0x0F).pc.toNat)
      (Memory.read (lastPlace 0x80 0x0F).mem ((lastPlace 0x80 0x0F).pc.toNat + 1))) := by
  unfold IllegalWord; decide

/-- Each row of the table at the last value that raises and the first that does not. -/
theorem witness_ErrorsAreExactlyTheTable :
    Raises (.call 0) { boot [] with sp := 16 } .stackOverflow ∧ Raises .ret (boot []) .stackUnderflow ∧
    Raises (.drw 0 0 2) { boot [] with i := 4095 } (.memoryOutOfBounds .read 4096) ∧
    Raises (.ldB 0) { boot [] with i := 4094 } (.memoryOutOfBounds .write 4096) ∧
    Raises (.stRegs 1) { boot [] with i := 4095 } (.memoryOutOfBounds .write 4096) ∧
    Raises (.ldRegs 0) { boot [] with i := 4097 } (.memoryOutOfBounds .read 4097) := by
  unfold Raises; decide

theorem witness_ErrorsAreExactlyTheTable_none :
    (∀ e, ¬ Raises (.call 0) { boot [] with sp := 15 } e) ∧ (∀ e, ¬ Raises .ret { boot [] with sp := 1 } e) ∧
    (∀ e, ¬ Raises (.drw 0 0 0) { boot [] with i := 0xFFFF } e) ∧
    (∀ e, ¬ Raises (.drw 0 0 1) { boot [] with i := 4095 } e) ∧
    (∀ e, ¬ Raises (.ldB 0) { boot [] with i := 4093 } e) ∧
    (∀ e, ¬ Raises (.stRegs 0) { boot [] with i := 4095 } e) ∧
    (∀ e, ¬ Raises (.ldRegs 0) { boot [] with i := 4095 } e) ∧ (∀ e, ¬ Raises .cls (boot []) e) :=
  ⟨fun _ h => absurd h.1 (by decide), fun _ h => absurd h.1 (by decide), fun _ h => absurd h.1 (by decide),
   fun _ h => absurd h.2.1 (by decide), fun _ h => absurd h.1 (by decide), fun _ h => absurd h.1 (by decide),
   fun _ h => absurd h.1 (by decide), fun _ h => h⟩

theorem witness_ErrorRepeatsUntilReloaded :
    step (boot [0x00, 0xEE]) = .fault .stackUnderflow ∧
    ∀ op ∈ [HostOp.executeCycle, .setKeys (Vector.replicate 16 true), .readVram, .readDrawFlag, .clearDrawFlag,
      .takeSoundEvents], keepsProgram op = true := ⟨rfl, by decide⟩

/-- Every kind of next PC is taken by some instruction; FX0A waits with key F alone pressed. -/
theorem witness_NextPcKinds :
    (∃ t, exec .cls (boot []) = .next t) ∧ (∃ t, exec (.seImm 0 0) (boot []) = .next t) ∧
    (∃ t, exec (.jp 0xABC) (boot []) = .next t) ∧ (∃ t, exec (.call 0xABC) (boot []) = .next t) ∧
    (∃ t, exec (.jpV0 0xFFF) (boot []) = .next t) ∧ (∃ t, exec .ret { boot [] with sp := 16 } = .next t) ∧
    exec (.ldVxK 0) (pressed (boot []) [15]) = .next (pressed (boot []) [15]) :=
  ⟨⟨_, rfl⟩, ⟨_, rfl⟩, ⟨_, rfl⟩, ⟨_, rfl⟩, ⟨_, rfl⟩, ⟨_, rfl⟩, rfl⟩

theorem witness_CallPushesReturnAddress :
    (boot []).sp.val = (0 : Fin 16).val ∧ ({ boot [] with sp := 15 } : State).sp.val = (15 : Fin 16).val ∧
    ({ boot [] with sp := 16 } : State).sp.val = 16 := by decide

theorem witness_ReturnPopsIntoPc :
    ({ boot [] with sp := 1 } : State).sp.val = (0 : Fin 16).val + 1 ∧
    ({ boot [] with sp := 16 } : State).sp.val = (15 : Fin 16).val + 1 ∧ (boot []).sp.val = 0 := by decide

theorem witness_CallThenReturnResumesAfterCall :
    ∃ t u : State, exec (.call 0x300) (boot []) = .next t ∧ u.sp = t.sp ∧ u.stack = t.stack :=
  ⟨_, _, rfl, rfl, rfl⟩

theorem witness_KeySkips :
    (((boot []).setV 1 15).getV 1).toNat = (15 : Fin 16).val ∧ 16 ≤ (((boot []).setV 1 16).getV 1).toNat ∧
    16 ≤ (((boot []).setV 1 0xFF).getV 1).toNat := by decide

/-- x = F is covered by the clauses on VF, every other x by those on V[x]. -/
theorem witness_AddSetsCarry : (0xE : Reg) ≠ VF ∧ (0 : Reg) ≠ VF := by decide

theorem witness_SubtractsSetGreaterFlag : (0xE : Reg) ≠ VF ∧ (0 : Reg) ≠ VF := by decide

theorem witness_ShiftsSetShiftedOutBit : (0xE : Reg) ≠ VF ∧ (0 : Reg) ≠ VF := by decide

theorem witness_RandomIsMasked : (0 : Byte) = 0 := rfl

theorem witness_OnlyFlagWritersTouchVF :
    (∃ t, exec (.addReg 0 1) (boot []) = .next t) ∧ writesFlag (.addReg 0 1) = true ∧
    (∃ t, exec (.ldRegs 0xE) (boot []) = .next t) ∧ writesFlag (.ldRegs 0xE) = false ∧
    writesData (.ldRegs 0xE) VF = false := ⟨⟨_, rfl⟩, rfl, ⟨_, rfl⟩, rfl, rfl⟩

theorem witness_BcdStoresDigits :
    Memory.wf ({ boot [] with i := 4093 } : State).mem = true ∧ ({ boot [] with i := 4093 } : State).i.toNat + 2 < 4096 ∧
    4096 ≤ ({ boot [] with i := 4094 } : State).i.toNat + 2 := by decide

theorem witness_BlockStore :
    Memory.wf ({ boot [] with i := 4080 } : State).mem = true ∧
    ({ boot [] with i := 4080 } : State).i.toNat + (0xF : Reg).val < 4096 ∧
    4096 ≤ ({ boot [] with i := 4081 } : State).i.toNat + (0xF : Reg).val := by decide

theorem witness_BlockLoad :
    ({ boot [] with i := 4080 } : State).i.toNat + (0xF : Reg).val < 4096 ∧ (0xF : Reg) ≤ 0xF ∧
    4096 ≤ ({ boot [] with i := 4081 } : State).i.toNat + (0xF : Reg).val := by decide

theorem witness_BlockStoreThenLoad :
    Memory.wf ({ boot [] with i := 0x300 } : State).mem = true ∧ ∃ t u w : State,
      exec (.stRegs 1) { boot [] with i := 0x300 } = .next t ∧ u.mem = t.mem ∧ u.i = 0x300 ∧
      exec (.ldRegs 1) u = .next w ∧ (1 : Reg) ≤ 1 :=
  ⟨by decide, _, _, _, rfl, rfl, rfl, rfl, by decide⟩

/-- FX55's byte at 4095 is a low byte at PC = 4094 and its byte at 0 a high byte at PC = 0; FX33's last digit likewise. -/
theorem witness_StoredBytesAreFetched :
    Memory.wf ({ boot [] with i := 4095 } : State).mem = true ∧ ({ boot [] with pc := 4094 } : State).pc.toNat + 1 = 4095 + (0 : Reg).val ∧
    ({ boot [] with pc := 0 } : State).pc.toNat = 0 + (0 : Reg).val ∧ 0 + (0 : Reg).val + 1 < 4096 ∧
    (∃ t : State, exec (.stRegs 0) { boot [] with i := 4095 } = .next t ∧ ({ t with pc := 4094 } : State).mem = t.mem) ∧
    (∃ t : State, exec (.stRegs 0) { boot [] with i := 0 } = .next t ∧ ({ t with pc := 0 } : State).mem = t.mem) :=
  ⟨by decide, by decide, by decide, by decide, ⟨_, rfl, rfl⟩, ⟨_, rfl, rfl⟩⟩

theorem witness_StoredBytesAreFetched_bcd :
    Memory.wf ({ boot [] with i := 4093 } : State).mem = true ∧ ({ boot [] with pc := 4094 } : State).pc.toNat + 1 = 4093 + (2 : Fin 3).val ∧
    ({ boot [] with pc := 4094 } : State).pc.toNat = 4093 + (1 : Fin 3).val ∧ 4093 + (1 : Fin 3).val + 1 < 4096 ∧
    ∃ t : State, exec (.ldB 1) { boot [] with i := 4093 } = .next t ∧ ({ t with pc := 4094 } : State).mem = t.mem :=
  ⟨by decide, by decide, by decide, by decide, _, rfl, rfl⟩

/-- Both clauses at the bound, n = 0 with I far outside, and a covered, a lit and an uncovered cell. -/
theorem witness_DrawFlipsCoveredCells :
    Memory.vramWf (boot []).vram = true ∧ ((0 : BitVec 4).toNat = 0) ∧
    ({ boot [] with i := 4095 } : State).i.toNat + (1 : BitVec 4).toNat - 1 < 4096 ∧
    0 < (2 : BitVec 4).toNat ∧ 4096 ≤ ({ boot [] with i := 4095 } : State).i.toNat + (2 : BitVec 4).toNat - 1 ∧
    Memory.vramWf [(2047, 0xFF)] = true := by decide

theorem witness_DrawFlipsCoveredCells_cells :
    spriteCovers { poke (boot []) 0x300 0x81 with i := 0x300 } 56 31 1 63 31 ∧
    ¬ spriteCovers { poke (boot []) 0x300 0x81 with i := 0x300 } 56 31 1 62 31 ∧
    cell { boot [] with vram := [(2047, 0xFF)] } 63 31 = 0xFF := by
  unfold spriteCovers; decide

theorem witness_DrawTwiceRestores :
    Memory.vramWf (boot []).vram = true ∧ (0 : Reg) ≠ VF ∧ (1 : Reg) ≠ VF ∧ ∃ t w : State,
      exec (.drw 0 1 1) (boot []) = .next t ∧ t.mem = (boot []).mem ∧ t.i = (boot []).i ∧
      exec (.drw 0 1 1) t = .next w :=
  ⟨by decide, by decide, by decide, _, _, rfl, rfl, rfl, rfl⟩

/-- The highest scanned key; and no scanned key, with key F pressed. -/
theorem witness_WaitForKey :
    (14 : Fin 16).val ≤ (pressed (boot []) [14, 15]).cfg.lastKey.toNat ∧
    (pressed (boot []) [14, 15]).keys[(14 : Fin 16).val] = true ∧
    (∀ j : Fin 16, j < 14 → (pressed (boot []) [14, 15]).keys[j.val] = false) ∧
    (∀ k : Fin 16, k.val ≤ (pressed (boot []) [15]).cfg.lastKey.toNat →
      (pressed (boot []) [15]).keys[k.val] = false) := by decide

theorem witness_WaitForKey_last_key_15 :
    (15 : Fin 16).val ≤ ({ pressed (boot []) [15] with cfg := cfgKey15 } : State).cfg.lastKey.toNat ∧
    (pressed (boot []) [15]).keys[(15 : Fin 16).val] = true ∧
    (∀ j : Fin 16, j < 15 → (pressed (boot []) [15]).keys[j.val] = false) := by decide

/-- A tick that decrements a running DT beside a stopped ST, and the other way round. -/
theorem witness_TimersDecrementTogether :
    0 < ({ boot [] with divcnt := 9, dt := 1 } : State).dt.toNat ∧ ({ boot [] with divcnt := 9, dt := 1 } : State).st.toNat = 0 ∧
    0 < ({ boot [] with divcnt := 9, st := 255 } : State).st.toNat ∧
    ({ boot [] with divcnt := 9, st := 255 } : State).dt.toNat = 0 := by decide

theorem witness_TickCountsDown :
    (timerTick { boot [] with divcnt := 8 }).divcnt ≠ 0 ∧ (timerTick { boot [] with divcnt := 9, st := 1 }).divcnt = 0 := by
  decide

theorem witness_TicksInARow :
    ({ boot [] with divcnt := 9 } : State).divcnt < ({ boot [] with divcnt := 9 } : State).cfg.div := by decide

theorem witness_DividerCountsCycles :
    ({ boot [0x12, 0x00] with divcnt := 9 } : State).divcnt < ({ boot [0x12, 0x00] with divcnt := 9 } : State).cfg.div ∧
    ∃ t, Host.Core.run Sys2Proof.core 1 { boot [0x12, 0x00] with divcnt := 9 } = .next t := ⟨by decide, _, rfl⟩

theorem witness_SelfJumpOnlyTicks :
    (lastPlace 0x1F 0xFE).pc.toNat + 1 < 4096 ∧
    (Memory.read (lastPlace 0x1F 0xFE).mem (lastPlace 0x1F 0xFE).pc.toNat).toNat * 256 +
      (Memory.read (lastPlace 0x1F 0xFE).mem ((lastPlace 0x1F 0xFE).pc.toNat + 1)).toNat =
      0x1000 + (lastPlace 0x1F 0xFE).pc.toNat := by decide

/-- For every component with named writers, a step of one of them that changes it. -/
theorem witness_OnlyTheNamedWriters :
    (∃ t, exec (.ldI 5) (boot []) = .next t ∧ t.i ≠ (boot []).i) ∧
    (∃ t, exec (.ldDtVx 0) ((boot []).setV 0 9) = .next t ∧ t.dt ≠ (boot []).dt) ∧
    (∃ t, exec (.ldStVx 0) ((boot []).setV 0 9) = .next t ∧ t.st ≠ (boot []).st) ∧
    (∃ t, exec .cls { boot [] with vram := [(0, 0xFF)] } = .next t ∧ t.vram ≠ [(0, 0xFF)]) ∧
    (∃ t, exec (.drw 0 0 1) (boot []) = .next t ∧ t.drawFlag ≠ (boot []).drawFlag) ∧
    (∃ t, exec (.ldB 0) ((boot []).setV 0 9) = .next t ∧ t.mem ≠ (boot []).mem) ∧
    (∃ t, exec (.call 0) (boot []) = .next t ∧ t.sp ≠ (boot []).sp ∧ t.stack ≠ (boot []).stack) ∧
    (∃ t, exec (.rnd 0 0) (boot []) = .next t ∧ t.draws ≠ (boot []).draws) :=
  ⟨⟨_, rfl, by decide⟩, ⟨_, rfl, by decide⟩, ⟨_, rfl, by decide⟩, ⟨_, rfl, by decide⟩, ⟨_, rfl, by decide⟩,
   ⟨_, rfl, by decide⟩, ⟨_, rfl, by decide, by decide⟩, ⟨_, rfl, by decide⟩⟩

theorem witness_NewIsZero : hostNew cfg60 = State.zero cfg60 := rfl

theorem witness_StepKeepsWellFormed :
    State.wf (boot [0x61, 0x05]) = true ∧ ∃ t, step (boot [0x61, 0x05]) = .next t := ⟨by decide, _, rfl⟩

theorem witness_HostCallsKeepWellFormed : State.wf { boot [0x61, 0x05] with divcnt := 9 } = true := by decide

/-- At the bound: PC = 0x10FE, and a full stack of return addresses 0x1000. -/
theorem witness_PcStaysBounded :
    State.pcBounded { boot [] with pc := 0x10FE, sp := 16, stack := Vector.replicate 16 0x1000 } ∧
    State.pcBounded (lastPlace 0x61 0x05) ∧ ∃ t, step (lastPlace 0x61 0x05) = .next t :=
  ⟨⟨by decide, by decide⟩, ⟨by decide, by decide⟩, _, rfl⟩

theorem witness_StepsKeepKeysAndConfiguration : ∃ t, step (boot [0x61, 0x05]) = .next t := ⟨_, rfl⟩

/-- Each clause at its bound: the bad configurations and the least good one. -/
theorem witness_ConfigurationIsChecked :
    hostConfigure { goodParams with clockHz := 59 } = none ∧ hostConfigure { goodParams with fx0aLastKey := 16 } = none ∧
    hostConfigure { goodParams with fontset := List.replicate 81 0 } = none ∧
    (hostConfigure { goodParams with clockHz := 60 }).isSome = true ∧
    (hostConfigure { goodParams with fx0aLastKey := 15 }).isSome = true := by decide

theorem witness_InitializeSetsPcAndFont : Memory.wf (boot [0xAA]).mem = true := by decide

theorem witness_LoadRomRoundTrip :
    Memory.wf (boot []).mem = true ∧ (∃ t, hostLoadRom [0xAA, 0xBB] (boot []) = .ok t) ∧
    1 < ([0xAA, 0xBB] : List Byte).length ∧ 3584 < (List.replicate 3585 (0xAA : Byte)).length :=
  ⟨by decide, ⟨_, rfl⟩, by decide, by rw [List.length_replicate]; decide⟩

theorem witness_LoadRomChangesOnlyTheRom : (List.replicate 3584 (0xAA : Byte)).length ≤ 3584 := by
  rw [List.length_replicate]

theorem witness_InitializeAndLoadCommute :
    Memory.wf (hostNew cfg600).mem = true ∧ ∃ t u : State, hostLoadRom [0xAA] (hostNew cfg600) = .ok t ∧
      hostLoadRom [0xAA] (hostInitialize (hostNew cfg600)) = .ok u := ⟨by decide, _, _, rfl, rfl⟩

theorem witness_CycleBeforeInitialize :
    (hostNew cfg600 = hostNew cfg600) ∧ ∃ s : State, hostLoadRom [0x61, 0x05] (hostNew cfg600) = .ok s := ⟨rfl, _, rfl⟩

theorem witness_BootFetchesTheRom :
    ∃ s : State, hostLoadRom (0x61 :: 0x05 :: []) (hostInitialize (hostNew cfg600)) = .ok s := ⟨_, rfl⟩

theorem witness_HostAccessors : 0 < (hostReadVram (boot [])).length := by simp [hostReadVram, Memory.readBlock]

end Sys2Proof.Tests
end

