-- ==== Sys2Proof/Proofs/Reset.lean ====
section
/-!
SUPPORT. The state after `new()` (R41): what a read of memory, of a register, of a stack slot and of a key returns there.
-/

namespace Sys2Proof.Machine

/-- The empty list of cells is the memory that is 0 everywhere (log 6). -/
@[simp] theorem Memory.read_nil (a : Nat) : Memory.read [] a = 0 := rfl

@[simp] theorem State.getV_zero (cfg : Config) (r : Reg) : (State.zero cfg).getV r = 0 :=
  Vector.getElem_replicate r.isLt

@[simp] theorem State.zero_stack_getElem (cfg : Config) {k : Nat} (hk : k < 16) : (State.zero cfg).stack[k] = 0 :=
  Vector.getElem_replicate hk

@[simp] theorem State.zero_keys_getElem (cfg : Config) {k : Nat} (hk : k < 16) : (State.zero cfg).keys[k] = false :=
  Vector.getElem_replicate hk

/-- Settles O46: `new()` is the zero state, whose two memories, registers, stack and keys read as 0 at every place and
whose other components are 0 by definition (R41). -/
theorem newIsZero : Obligations.NewIsZero := by
  rintro cfg _ rfl
  have hstack (k : Fin 16) : (hostNew cfg).stack[k.val].toNat = 0 :=
    congrArg BitVec.toNat (State.zero_stack_getElem cfg k.isLt)
  have hkeys (k : Fin 16) : (hostNew cfg).keys[k.val] = false := State.zero_keys_getElem cfg k.isLt
  exact ⟨Memory.read_nil, State.getV_zero cfg, rfl, rfl, rfl, hstack, rfl, rfl, rfl, hkeys, Memory.read_nil, rfl, rfl⟩

end Sys2Proof.Machine
end

/-!
The encoding family (30_encoding.md): the fields of an instruction word.
-/

namespace Sys2Proof

/-- Settles O1: each field is the digit that its own law in `Laws/Decode` reads off the word. -/
theorem fieldsOfAWord : Obligations.FieldsOfAWord := fun op =>
  ⟨toNat_opTop op, val_opX op, val_opY op, toNat_opN op, toNat_opNN op, toNat_opNNN op⟩

end Sys2Proof

/-!
The control-flow family (41_control_flow.md), 1NNN, 3XNN and 4XNN: the decoder read backwards, from an instruction to
its row of spec/opcode_table.json, and the instructions that change PC alone.
-/

namespace Sys2Proof

open Laws.TableRow (mask pattern)

/-! ### A masked word, compared with a row's match (R84) -/

theorem and_F000_eq_iff {op p : Word} : op &&& 0xF000 = p ↔ op.toNat / 4096 * 4096 = p.toNat := by
  rw [← BitVec.toNat_inj, and_F000]

theorem and_F0FF_eq_iff {op p : Word} :
    op &&& 0xF0FF = p ↔ op.toNat / 4096 * 4096 + op.toNat % 256 = p.toNat := by
  rw [← BitVec.toNat_inj, and_F0FF]

theorem and_F00F_eq_iff {op p : Word} :
    op &&& 0xF00F = p ↔ op.toNat / 4096 * 4096 + op.toNat % 16 = p.toNat := by
  rw [← BitVec.toNat_inj, and_F00F]

/-! ### A word that decodes lies in its instruction's row: first the four families, then every word -/

theorem and_mask_of_decode0 {op : Word} {i : Instr} (ht : op.toNat / 4096 = 0x0) (h : decode0 op = .ok i) :
    op &&& mask i = pattern i := by
  unfold decode0 at h
  rw [toNat_opNN] at h
  split at h <;> cases h <;> exact and_F0FF_eq_iff.mpr (by simp [pattern, *])

theorem and_mask_of_decode8 {op : Word} {i : Instr} (ht : op.toNat / 4096 = 0x8) (h : decode8 op = .ok i) :
    op &&& mask i = pattern i := by
  unfold decode8 at h
  rw [toNat_opN] at h
  split at h <;> cases h <;> exact and_F00F_eq_iff.mpr (by simp [pattern, *])

theorem and_mask_of_decodeE {op : Word} {i : Instr} (ht : op.toNat / 4096 = 0xE) (h : decodeE op = .ok i) :
    op &&& mask i = pattern i := by
  unfold decodeE at h
  rw [toNat_opNN] at h
  split at h <;> cases h <;> exact and_F0FF_eq_iff.mpr (by simp [pattern, *])

theorem and_mask_of_decodeF {op : Word} {i : Instr} (ht : op.toNat / 4096 = 0xF) (h : decodeF op = .ok i) :
    op &&& mask i = pattern i := by
  unfold decodeF at h
  rw [toNat_opNN] at h
  split at h <;> cases h <;> exact and_F0FF_eq_iff.mpr (by simp [pattern, *])

theorem and_mask_of_decode {op : Word} {i : Instr} (h : decode op = .ok i) : op &&& mask i = pattern i := by
  have hlt := op.isLt
  unfold decode at h
  rw [toNat_opTop] at h
  split at h
  case h_1 ht => exact and_mask_of_decode0 ht h
  case h_9 ht => exact and_mask_of_decode8 ht h
  case h_15 ht => exact and_mask_of_decodeE ht h
  case h_16 =>
    have ht : op.toNat / 4096 = 0xF := by
      simp only [imp_false] at *
      omega
    exact and_mask_of_decodeF ht h
  all_goals
    cases h
    exact and_F000_eq_iff.mpr (by simp [pattern, *])

end Sys2Proof

namespace Sys2Proof.Claims

open Sys2Proof.Machine
open Laws.TableRow (mask pattern)

/-- An instruction that its top nibble alone selects: the row of mask F000 is exactly its words. -/
theorem encodes_of_topNibble {p : Word} {f : Word → Instr} (hrow : ∀ op, mask (f op) = 0xF000 ∧ pattern (f op) = p)
    (hdecode : ∀ {op : Word}, op.toNat / 4096 = p.toNat / 4096 → decode op = .ok (f op)) : Encodes 0xF000 p f := by
  intro op
  obtain ⟨hmask, hpattern⟩ := hrow op
  constructor
  · intro h
    have := and_F000_eq_iff.mp h
    exact hdecode (by omega)
  · intro h
    rw [← hmask, ← hpattern]
    exact and_mask_of_decode h

/-- An address keeps its value when it is widened (R73). -/
theorem toNat_zext16 (nnn : BitVec 12) : (zext16 nnn).toNat = nnn.toNat :=
  BitVec.toNat_setWidth_of_le (by decide)

theorem frame_setPc (s : State) (w : Word) : Frame {} s (s.setPc w) := by
  simp [Frame]

/-- A skip is a write of PC and nothing else (R130). -/
theorem frame_skipIf (s : State) (c : Bool) : Frame {} s (s.skipIf c) := frame_setPc s _

theorem nextPc_skipIf (s : State) (p : Prop) [Decidable p] :
    NextPc (if p then 4 else 2) s (s.skipIf (decide p)) := by
  by_cases h : p <;> simp [NextPc, h, BitVec.toNat_add]

/-- Settles O13: the word's row is read from its top nibble, and JP's next state is a write of PC. -/
theorem jumpSetsPc : Obligations.JumpSetsPc := by
  refine ⟨encodes_of_topNibble (fun _ => ⟨rfl, rfl⟩) decode_jp, fun nnn s => ?_⟩
  exact ⟨s.setPc (zext16 nnn), rfl, toNat_zext16 nnn, frame_setPc s _⟩

/-- Settles O18: SE and SNE with an immediate are skips on their own comparison. -/
theorem compareImmediateSkips : Obligations.CompareImmediateSkips :=
  ⟨encodes_of_topNibble (fun _ => ⟨rfl, rfl⟩) decode_seImm,
    encodes_of_topNibble (fun _ => ⟨rfl, rfl⟩) decode_sneImm,
    fun x nn s => ⟨_, rfl, nextPc_skipIf s (s.getV x = nn), frame_skipIf s _⟩,
    fun x nn s => ⟨_, rfl, nextPc_skipIf s (s.getV x ≠ nn), frame_skipIf s _⟩⟩

end Sys2Proof.Claims

/-!
The load and ALU family (42_alu.md), 6XNN, 7XNN and 8XY4: rows that the top and the low nibble select, register writes
that end in the default advance, and the carry.
-/

namespace Sys2Proof.Claims

open Sys2Proof.Machine
open Laws.TableRow (mask pattern)

/-- An instruction that its top and low nibble select: the row of mask F00F is exactly its words. -/
theorem encodes_of_topAndLowNibble {p : Word} {f : Word → Instr}
    (hrow : ∀ op, mask (f op) = 0xF00F ∧ pattern (f op) = p)
    (hdecode : ∀ {op : Word}, op.toNat / 4096 = p.toNat / 4096 → op.toNat % 16 = p.toNat % 16 →
      decode op = .ok (f op)) : Encodes 0xF00F p f := by
  intro op
  obtain ⟨hmask, hpattern⟩ := hrow op
  constructor
  · intro h
    have := and_F00F_eq_iff.mp h
    exact hdecode (by omega) (by omega)
  · intro h
    rw [← hmask, ← hpattern]
    exact and_mask_of_decode h

/-! ### Register writes, then the default advance -/

/-- The default advance moves PC by 2 from whatever state kept PC so far (R108). -/
theorem nextPc_advance {s u : State} (hpc : u.pc = s.pc) : NextPc 2 s u.advance := by
  simp [NextPc, hpc, BitVec.toNat_add]

/-- New registers and a new PC: the frame asks only for the registers that are not named. -/
theorem frame_writeRegs {s : State} {regs : List Reg} {v : Vector Byte 16} {pc : Word}
    (hother : ∀ r : Reg, r ∉ regs → v[r.val] = s.v[r.val]) :
    Frame { regs := regs } s { s with v := v, pc := pc } := by
  simpa [Frame, State.getV] using hother

theorem frame_setV_advance (s : State) (x : Reg) (b : Byte) : Frame { regs := [x] } s (s.setV x b).advance :=
  frame_writeRegs fun _ hr => s.getV_setV_other (List.ne_of_not_mem_cons hr) b

theorem frame_setResultFlag_advance (s : State) (x : Reg) (b f : Byte) :
    Frame { regs := [x, VF] } s (s.setResultFlag x b f).advance :=
  frame_writeRegs fun r hr => by
    have hr : r ≠ x ∧ r ≠ VF := by simpa using hr
    exact (State.getV_setV_other _ hr.2 f).trans (s.getV_setV_other hr.1 b)

/-- The flag is written last, so VF holds it even when VF is the destination (R22, R107). -/
theorem getV_VF_setResultFlag (s : State) (x : Reg) (b f : Byte) : (s.setResultFlag x b f).getV VF = f :=
  State.getV_setV_same _ VF f

theorem getV_setResultFlag_of_ne_VF (s : State) {x : Reg} (hx : x ≠ VF) (b f : Byte) :
    (s.setResultFlag x b f).getV x = b := by
  simp [State.getV_setResultFlag, hx.symm]

/-! ### Flags as numbers (R152) -/

theorem toNat_flagByte (p : Prop) [Decidable p] : (flagByte (decide p)).toNat = if p then 1 else 0 := by
  by_cases h : p <;> simp [flagByte, h]

theorem toNat_carryFlag (a b : Byte) : (carryFlag a b).toNat = if a.toNat + b.toNat > 255 then 1 else 0 :=
  toNat_flagByte (255 < a.toNat + b.toNat)

/-- Settles O21: both write V[x] and advance; a sum of bytes is the sum of their numbers modulo 256. -/
theorem loadAndAddImmediate : Obligations.LoadAndAddImmediate := by
  refine ⟨encodes_of_topNibble (fun _ => ⟨rfl, rfl⟩) decode_ldImm,
    encodes_of_topNibble (fun _ => ⟨rfl, rfl⟩) decode_addImm, fun x nn s => ?ldImm, fun x nn s => ?addImm⟩
  case ldImm =>
    exact ⟨_, rfl, s.getV_setV_same x nn, nextPc_advance rfl, frame_setV_advance s x nn⟩
  case addImm =>
    refine ⟨(s.setV x (s.getV x + nn)).advance, rfl, ?_, nextPc_advance rfl, frame_setV_advance s x _⟩
    rw [State.getV_advance, State.getV_setV_same, BitVec.toNat_add]

/-- Settles O23: the sum modulo 256 is what V[x] keeps unless the carry, written last, overwrites it. -/
theorem addSetsCarry : Obligations.AddSetsCarry := by
  refine ⟨encodes_of_topAndLowNibble (fun _ => ⟨rfl, rfl⟩) decode_addReg, fun x y s => ?_⟩
  refine ⟨(s.setResultFlag x (s.getV x + s.getV y) (carryFlag (s.getV x) (s.getV y))).advance, rfl,
    fun hx => ?sum, ?carry, nextPc_advance rfl, frame_setResultFlag_advance s x _ _⟩
  case sum => rw [State.getV_advance, getV_setResultFlag_of_ne_VF s hx, BitVec.toNat_add]
  case carry => rw [State.getV_advance, getV_VF_setResultFlag, toNat_carryFlag]

end Sys2Proof.Claims

/-!
The index and memory family (43_index_memory.md), ANNN: a write of I that ends in the default advance.
-/

namespace Sys2Proof.Claims

open Sys2Proof.Machine

/-- A write of I and the default advance change I and PC alone (R108, R170). -/
theorem frame_setI_advance (s : State) (w : Word) : Frame { i := true } s (s.setI w).advance := by
  simp [Frame]

/-- Settles O28: the word's row is read from its top nibble, and I receives the widened address. -/
theorem loadIndex : Obligations.LoadIndex := by
  refine ⟨encodes_of_topNibble (fun _ => ⟨rfl, rfl⟩) decode_ldI, fun nnn s => ?_⟩
  exact ⟨(s.setI (zext16 nnn)).advance, rfl, toNat_zext16 nnn, nextPc_advance rfl, frame_setI_advance s _⟩

end Sys2Proof.Claims

/-!
The exceptions and host-boundary family (60_exceptions.md), R244 to R249: both timers of a tick, as numbers, on a wrap of
the divider and off it. The one test decides for both, which is why they go down together.
-/

namespace Sys2Proof.Machine

theorem timers_timerTick_of_wrap {s : State} (hwrap : s.tickWraps = true) :
    (timerTick s).dt.toNat = s.dt.toNat - 1 ∧ (timerTick s).st.toNat = s.st.toNat - 1 := by
  simp [hwrap, toNat_countDown]

theorem timers_timerTick_of_no_wrap {s : State} (hwrap : s.tickWraps = false) :
    (timerTick s).dt = s.dt ∧ (timerTick s).st = s.st := by
  simp [hwrap]

/-- Settles O40, by whether the tick wraps the divider: if it does, both timers take the subtraction that stops at 0. -/
theorem timersDecrementTogether : Obligations.TimersDecrementTogether := by
  intro s
  cases hwrap : s.tickWraps with
  | false => exact .inl (timers_timerTick_of_no_wrap hwrap)
  | true =>
    obtain ⟨hdt, hst⟩ := timers_timerTick_of_wrap hwrap
    right
    omega

end Sys2Proof.Machine

/-!
The reset family (70_reset_and_hazards.md): the two outcomes of `load_rom`, and what memory holds after each.
-/

namespace Sys2Proof.Machine

theorem hostLoadRom_eq_error_iff {bytes : List Byte} {s : State} {e : LoadError} :
    hostLoadRom bytes s = .error e ↔ 3584 < bytes.length ∧ e = .romTooLarge := by
  unfold hostLoadRom romFits
  split <;> simp_all [eq_comm]

/-- A loaded ROM reads back from 0x200, as a ROM that loads lies whole inside memory (R276, R277). -/
theorem read_mem_of_hostLoadRom {bytes : List Byte} {s t : State} (hwf : Memory.wf s.mem = true)
    (ht : hostLoadRom bytes s = .ok t) {k : Nat} (hk : k < bytes.length) :
    Memory.read t.mem (0x200 + k) = bytes[k] := by
  obtain ⟨hlen, rfl⟩ := hostLoadRom_eq_ok.mp ht
  have hend : 0x200 + bytes.length ≤ 4096 := by omega
  exact Memory.read_writeBlock_same bytes s.mem 0x200 k hwf hend hk

/-- A failed load hands the host back the state it gave (R235). -/
theorem hostCall_loadRom_of_error {bytes : List Byte} {s : State} {e : LoadError}
    (he : hostLoadRom bytes s = .error e) : hostCall (.loadRom bytes) s = (s, .loadFailed e) := by
  simp [hostCall, he]

/-- Settles O54, by the outcome of the load: a success wrote the block at 0x200, an oversize ROM wrote nothing. -/
theorem loadRomRoundTrip : Obligations.LoadRomRoundTrip := fun _ _ hwf =>
  ⟨fun _ ht _ hk => read_mem_of_hostLoadRom hwf ht hk,
    fun hlong => hostCall_loadRom_of_error (hostLoadRom_eq_error_iff.mpr ⟨hlong, rfl⟩)⟩

end Sys2Proof.Machine

/-!
The encoding family (30_encoding.md), both directions of the round trip, and the rows of spec/opcode_table.json against
the nested decoder.
-/

namespace Sys2Proof

open Claims (IllegalWord)

/-! ### From an instruction to its word and back -/

/-- Every field of a packed word is the one it was packed from, so the decoder takes the encoder's branch. -/
@[simp] theorem decode_encode (i : Instr) : decode (encode i) = .ok i := by
  cases i
  case cls | ret => rfl
  all_goals simp [encode, decode, decode8, decodeE, decodeF]

/-- Settles O2: the two bytes of the encoded word make that word again, which decodes to the instruction. -/
theorem decodeOfEncode : Obligations.DecodeOfEncode := fun i =>
  ⟨decode_encode i, fun rest => by simp [encodeBytes, decodeBytes]⟩

/-! ### From a word to its instruction and back: first the four families, then every word -/

theorem encode_of_decode0 {op : Word} {i : Instr} (ht : op.toNat / 4096 = 0x0) (h : decode0 op = .ok i) :
    encode i = op &&& ~~~(ignoredMask i) := by
  unfold decode0 at h
  rw [toNat_opNN] at h
  apply BitVec.eq_of_toNat_eq
  split at h <;> cases h
  all_goals
    simp only [encode, ignoredMask, and_not_0F00]
    simp
    omega

theorem encode_of_decode8 {op : Word} {i : Instr} (ht : op.toNat / 4096 = 0x8) (h : decode8 op = .ok i) :
    encode i = op &&& ~~~(ignoredMask i) := by
  unfold decode8 at h
  rw [toNat_opN] at h
  apply BitVec.eq_of_toNat_eq
  split at h <;> cases h
  all_goals
    simp only [encode, ignoredMask, toNat_packXYN, val_opX, val_opY, and_not_none, and_not_00F0]
    simp
    omega

theorem encode_of_decodeE {op : Word} {i : Instr} (ht : op.toNat / 4096 = 0xE) (h : decodeE op = .ok i) :
    encode i = op &&& ~~~(ignoredMask i) := by
  unfold decodeE at h
  rw [toNat_opNN] at h
  apply BitVec.eq_of_toNat_eq
  split at h <;> cases h
  all_goals
    simp only [encode, ignoredMask, toNat_packXNN, val_opX, and_not_none]
    simp
    omega

theorem encode_of_decodeF {op : Word} {i : Instr} (ht : op.toNat / 4096 = 0xF) (h : decodeF op = .ok i) :
    encode i = op &&& ~~~(ignoredMask i) := by
  unfold decodeF at h
  rw [toNat_opNN] at h
  apply BitVec.eq_of_toNat_eq
  split at h <;> cases h
  all_goals
    simp only [encode, ignoredMask, toNat_packXNN, val_opX, and_not_none]
    simp
    omega

/-- Settles O3, by the decoder's branches: the packed fields sum up to the word, less the digits that are ignored. -/
theorem encodeOfDecode : Obligations.EncodeOfDecode := by
  intro op i h
  have hlt := op.isLt
  unfold decode at h
  rw [toNat_opTop] at h
  split at h
  case h_1 ht => exact encode_of_decode0 ht h
  case h_9 ht => exact encode_of_decode8 ht h
  case h_15 ht => exact encode_of_decodeE ht h
  case h_16 =>
    have ht : op.toNat / 4096 = 0xF := by
      simp only [imp_false] at *
      omega
    exact encode_of_decodeF ht h
  all_goals
    cases h
    apply BitVec.eq_of_toNat_eq
    simp only [encode, ignoredMask, toNat_packNNN, toNat_packXNN, toNat_packXYN, val_opX, val_opY, toNat_opN,
      toNat_opNN, toNat_opNNN, and_not_none, and_not_000F]
    simp
    omega

/-! ### The illegal words (R81) -/

theorem decode_of_illegalWord {op : Word} (h : IllegalWord op) : decode op = .error ⟨op⟩ := by
  rcases h with ⟨ht, hlow⟩ | ⟨ht, hlow⟩ | ⟨ht, hlow⟩ | ⟨ht, hlow⟩
  · exact decode0_illegal ht hlow
  · refine decode8_illegal ht ?_
    simp only [List.mem_cons, List.not_mem_nil, or_false] at hlow ⊢
    omega
  · exact decodeE_illegal ht hlow
  · exact decodeF_illegal ht hlow

theorem illegalWord_of_decode_error {op : Word} {u : UnknownOpcode} (h : decode op = .error u) : IllegalWord op := by
  have hlt := op.isLt
  unfold decode at h
  rw [toNat_opTop] at h
  split at h
  case h_1 ht =>
    unfold decode0 at h
    rw [toNat_opNN] at h
    split at h <;> cases h
    exact .inl ⟨ht, by simp_all⟩
  case h_9 ht =>
    unfold decode8 at h
    rw [toNat_opN] at h
    split at h <;> cases h
    refine .inr (.inl ⟨ht, ?_⟩)
    simp only [imp_false, List.mem_cons, List.not_mem_nil, or_false] at *
    omega
  case h_15 ht =>
    unfold decodeE at h
    rw [toNat_opNN] at h
    split at h <;> cases h
    exact .inr (.inr (.inl ⟨ht, by simp_all⟩))
  case h_16 =>
    have ht : op.toNat / 4096 = 0xF := by
      simp only [imp_false] at *
      omega
    unfold decodeF at h
    rw [toNat_opNN] at h
    split at h <;> cases h
    exact .inr (.inr (.inr ⟨ht, by simp_all⟩))
  all_goals cases h

/-- Settles O5: an illegal word is an error of its family, and a word whose decoding errs is illegal. -/
theorem illegalWordsAreExactlyThese : Obligations.IllegalWordsAreExactlyThese := by
  refine fun op => ⟨decode_of_illegalWord, fun hlegal => ?_⟩
  cases h : decode op with
  | ok i => exact ⟨i, rfl⟩
  | error u => exact absurd (illegalWord_of_decode_error h) hlegal

/-- Settles O6: 24 words, evaluated. -/
theorem sampleWordsDecode : Obligations.SampleWordsDecode := by
  unfold Obligations.SampleWordsDecode
  decide

end Sys2Proof

/-!
The rows of spec/opcode_table.json (R84), one lemma per instruction: the words of its row, and no others, decode to it.
-/

namespace Sys2Proof.Claims

open Laws.TableRow (mask pattern)

/-- An instruction that its top nibble and low byte select: the row of mask F0FF is exactly its words. -/
theorem encodes_of_topNibbleAndLowByte {p : Word} {f : Word → Instr}
    (hrow : ∀ op, mask (f op) = 0xF0FF ∧ pattern (f op) = p)
    (hdecode : ∀ {op : Word}, op.toNat / 4096 = p.toNat / 4096 → op.toNat % 256 = p.toNat % 256 →
      decode op = .ok (f op)) : Encodes 0xF0FF p f := by
  intro op
  obtain ⟨hmask, hpattern⟩ := hrow op
  constructor
  · intro h
    have := and_F0FF_eq_iff.mp h
    exact hdecode (by omega) (by omega)
  · intro h
    rw [← hmask, ← hpattern]
    exact and_mask_of_decode h

theorem encodes_cls : Encodes 0xF0FF 0x00E0 (fun _ => .cls) :=
  encodes_of_topNibbleAndLowByte (fun _ => ⟨rfl, rfl⟩) decode_cls
theorem encodes_ret : Encodes 0xF0FF 0x00EE (fun _ => .ret) :=
  encodes_of_topNibbleAndLowByte (fun _ => ⟨rfl, rfl⟩) decode_ret
theorem encodes_jp : Encodes 0xF000 0x1000 (fun op => .jp (opNNN op)) :=
  encodes_of_topNibble (fun _ => ⟨rfl, rfl⟩) decode_jp
theorem encodes_call : Encodes 0xF000 0x2000 (fun op => .call (opNNN op)) :=
  encodes_of_topNibble (fun _ => ⟨rfl, rfl⟩) decode_call
theorem encodes_seImm : Encodes 0xF000 0x3000 (fun op => .seImm (opX op) (opNN op)) :=
  encodes_of_topNibble (fun _ => ⟨rfl, rfl⟩) decode_seImm
theorem encodes_sneImm : Encodes 0xF000 0x4000 (fun op => .sneImm (opX op) (opNN op)) :=
  encodes_of_topNibble (fun _ => ⟨rfl, rfl⟩) decode_sneImm
theorem encodes_seReg : Encodes 0xF000 0x5000 (fun op => .seReg (opX op) (opY op)) :=
  encodes_of_topNibble (fun _ => ⟨rfl, rfl⟩) decode_seReg
theorem encodes_ldImm : Encodes 0xF000 0x6000 (fun op => .ldImm (opX op) (opNN op)) :=
  encodes_of_topNibble (fun _ => ⟨rfl, rfl⟩) decode_ldImm
theorem encodes_addImm : Encodes 0xF000 0x7000 (fun op => .addImm (opX op) (opNN op)) :=
  encodes_of_topNibble (fun _ => ⟨rfl, rfl⟩) decode_addImm
theorem encodes_ldReg : Encodes 0xF00F 0x8000 (fun op => .ldReg (opX op) (opY op)) :=
  encodes_of_topAndLowNibble (fun _ => ⟨rfl, rfl⟩) decode_ldReg
theorem encodes_orReg : Encodes 0xF00F 0x8001 (fun op => .orReg (opX op) (opY op)) :=
  encodes_of_topAndLowNibble (fun _ => ⟨rfl, rfl⟩) decode_orReg
theorem encodes_andReg : Encodes 0xF00F 0x8002 (fun op => .andReg (opX op) (opY op)) :=
  encodes_of_topAndLowNibble (fun _ => ⟨rfl, rfl⟩) decode_andReg
theorem encodes_xorReg : Encodes 0xF00F 0x8003 (fun op => .xorReg (opX op) (opY op)) :=
  encodes_of_topAndLowNibble (fun _ => ⟨rfl, rfl⟩) decode_xorReg
theorem encodes_addReg : Encodes 0xF00F 0x8004 (fun op => .addReg (opX op) (opY op)) :=
  encodes_of_topAndLowNibble (fun _ => ⟨rfl, rfl⟩) decode_addReg
theorem encodes_sub : Encodes 0xF00F 0x8005 (fun op => .sub (opX op) (opY op)) :=
  encodes_of_topAndLowNibble (fun _ => ⟨rfl, rfl⟩) decode_sub
theorem encodes_shr : Encodes 0xF00F 0x8006 (fun op => .shr (opX op)) :=
  encodes_of_topAndLowNibble (fun _ => ⟨rfl, rfl⟩) decode_shr
theorem encodes_subn : Encodes 0xF00F 0x8007 (fun op => .subn (opX op) (opY op)) :=
  encodes_of_topAndLowNibble (fun _ => ⟨rfl, rfl⟩) decode_subn
theorem encodes_shl : Encodes 0xF00F 0x800E (fun op => .shl (opX op)) :=
  encodes_of_topAndLowNibble (fun _ => ⟨rfl, rfl⟩) decode_shl
theorem encodes_sneReg : Encodes 0xF000 0x9000 (fun op => .sneReg (opX op) (opY op)) :=
  encodes_of_topNibble (fun _ => ⟨rfl, rfl⟩) decode_sneReg
theorem encodes_ldI : Encodes 0xF000 0xA000 (fun op => .ldI (opNNN op)) :=
  encodes_of_topNibble (fun _ => ⟨rfl, rfl⟩) decode_ldI
theorem encodes_jpV0 : Encodes 0xF000 0xB000 (fun op => .jpV0 (opNNN op)) :=
  encodes_of_topNibble (fun _ => ⟨rfl, rfl⟩) decode_jpV0
theorem encodes_rnd : Encodes 0xF000 0xC000 (fun op => .rnd (opX op) (opNN op)) :=
  encodes_of_topNibble (fun _ => ⟨rfl, rfl⟩) decode_rnd
theorem encodes_drw : Encodes 0xF000 0xD000 (fun op => .drw (opX op) (opY op) (opN op)) :=
  encodes_of_topNibble (fun _ => ⟨rfl, rfl⟩) decode_drw
theorem encodes_skp : Encodes 0xF0FF 0xE09E (fun op => .skp (opX op)) :=
  encodes_of_topNibbleAndLowByte (fun _ => ⟨rfl, rfl⟩) decode_skp
theorem encodes_sknp : Encodes 0xF0FF 0xE0A1 (fun op => .sknp (opX op)) :=
  encodes_of_topNibbleAndLowByte (fun _ => ⟨rfl, rfl⟩) decode_sknp
theorem encodes_ldVxDt : Encodes 0xF0FF 0xF007 (fun op => .ldVxDt (opX op)) :=
  encodes_of_topNibbleAndLowByte (fun _ => ⟨rfl, rfl⟩) decode_ldVxDt
theorem encodes_ldVxK : Encodes 0xF0FF 0xF00A (fun op => .ldVxK (opX op)) :=
  encodes_of_topNibbleAndLowByte (fun _ => ⟨rfl, rfl⟩) decode_ldVxK
theorem encodes_ldDtVx : Encodes 0xF0FF 0xF015 (fun op => .ldDtVx (opX op)) :=
  encodes_of_topNibbleAndLowByte (fun _ => ⟨rfl, rfl⟩) decode_ldDtVx
theorem encodes_ldStVx : Encodes 0xF0FF 0xF018 (fun op => .ldStVx (opX op)) :=
  encodes_of_topNibbleAndLowByte (fun _ => ⟨rfl, rfl⟩) decode_ldStVx
theorem encodes_addI : Encodes 0xF0FF 0xF01E (fun op => .addI (opX op)) :=
  encodes_of_topNibbleAndLowByte (fun _ => ⟨rfl, rfl⟩) decode_addI
theorem encodes_ldF : Encodes 0xF0FF 0xF029 (fun op => .ldF (opX op)) :=
  encodes_of_topNibbleAndLowByte (fun _ => ⟨rfl, rfl⟩) decode_ldF
theorem encodes_ldB : Encodes 0xF0FF 0xF033 (fun op => .ldB (opX op)) :=
  encodes_of_topNibbleAndLowByte (fun _ => ⟨rfl, rfl⟩) decode_ldB
theorem encodes_stRegs : Encodes 0xF0FF 0xF055 (fun op => .stRegs (opX op)) :=
  encodes_of_topNibbleAndLowByte (fun _ => ⟨rfl, rfl⟩) decode_stRegs
theorem encodes_ldRegs : Encodes 0xF0FF 0xF065 (fun op => .ldRegs (opX op)) :=
  encodes_of_topNibbleAndLowByte (fun _ => ⟨rfl, rfl⟩) decode_ldRegs

/-! ### The whole table -/

theorem row_mem_opcodeTable (i : Instr) : (mnemonic i, mask i, pattern i) ∈ opcodeTable := by
  cases i <;> simp [opcodeTable, mnemonic, mask, pattern]

theorem nodup_mnemonics : (opcodeTable.map Prod.fst).Nodup := by decide

/-- An instruction's mnemonic names its row. -/
theorem eq_row_of_mnemonic {row : String × Word × Word} (hrow : row ∈ opcodeTable) {i : Instr}
    (h : mnemonic i = row.1) : (mnemonic i, mask i, pattern i) = row :=
  List.inj_on_of_nodup_map nodup_mnemonics (row_mem_opcodeTable i) hrow h

/-- Each row is the encoding of instructions of its own mnemonic. -/
theorem exists_encodes_of_row : ∀ row ∈ opcodeTable,
    ∃ f : Word → Instr, Encodes row.2.1 row.2.2 f ∧ ∀ op, mnemonic (f op) = row.1 := by
  simp only [opcodeTable, List.forall_mem_cons]
  exact ⟨⟨_, encodes_cls, fun _ => rfl⟩, ⟨_, encodes_ret, fun _ => rfl⟩, ⟨_, encodes_jp, fun _ => rfl⟩,
    ⟨_, encodes_call, fun _ => rfl⟩, ⟨_, encodes_seImm, fun _ => rfl⟩, ⟨_, encodes_sneImm, fun _ => rfl⟩,
    ⟨_, encodes_seReg, fun _ => rfl⟩, ⟨_, encodes_ldImm, fun _ => rfl⟩, ⟨_, encodes_addImm, fun _ => rfl⟩,
    ⟨_, encodes_ldReg, fun _ => rfl⟩, ⟨_, encodes_orReg, fun _ => rfl⟩, ⟨_, encodes_andReg, fun _ => rfl⟩,
    ⟨_, encodes_xorReg, fun _ => rfl⟩, ⟨_, encodes_addReg, fun _ => rfl⟩, ⟨_, encodes_sub, fun _ => rfl⟩,
    ⟨_, encodes_shr, fun _ => rfl⟩, ⟨_, encodes_subn, fun _ => rfl⟩, ⟨_, encodes_shl, fun _ => rfl⟩,
    ⟨_, encodes_sneReg, fun _ => rfl⟩, ⟨_, encodes_ldI, fun _ => rfl⟩, ⟨_, encodes_jpV0, fun _ => rfl⟩,
    ⟨_, encodes_rnd, fun _ => rfl⟩, ⟨_, encodes_drw, fun _ => rfl⟩, ⟨_, encodes_skp, fun _ => rfl⟩,
    ⟨_, encodes_sknp, fun _ => rfl⟩, ⟨_, encodes_ldVxDt, fun _ => rfl⟩, ⟨_, encodes_ldVxK, fun _ => rfl⟩,
    ⟨_, encodes_ldDtVx, fun _ => rfl⟩, ⟨_, encodes_ldStVx, fun _ => rfl⟩, ⟨_, encodes_addI, fun _ => rfl⟩,
    ⟨_, encodes_ldF, fun _ => rfl⟩, ⟨_, encodes_ldB, fun _ => rfl⟩, ⟨_, encodes_stRegs, fun _ => rfl⟩,
    ⟨_, encodes_ldRegs, fun _ => rfl⟩,
    List.forall_mem_nil _⟩

/-- Settles O4: a word of a row decodes to an instruction of that row's mnemonic, and an instruction's mnemonic leads
back to the row that its word lies in. -/
theorem decodeMatchesOpcodeTable : Obligations.DecodeMatchesOpcodeTable := by
  intro op row hrow
  constructor
  · intro h
    obtain ⟨f, hf, hname⟩ := exists_encodes_of_row row hrow
    exact ⟨f op, (hf op).mp h, hname op⟩
  · rintro ⟨i, hi, hname⟩
    rw [← eq_row_of_mnemonic hrow hname]
    exact and_mask_of_decode hi

end Sys2Proof.Claims

/-!
The cycle (40_cycle.md): what fetch makes of two bytes, the two errors before an instruction runs, and R237's table of
the errors that instructions raise. An error reads MEM, PC, SP and I alone, so it stays until one of them changes.
-/

namespace Sys2Proof.Machine

open Claims (IllegalWord Raises keepsProgram)

/-! ### Fetch -/

/-- The fetch of two bytes that decode (R101, R102). -/
theorem fetchInstr_of_decode {s : State} {i : Instr} (hpc : s.pc.toNat + 1 < 4096)
    (hi : decode (wordOfBytes (Memory.read s.mem s.pc.toNat) (Memory.read s.mem (s.pc.toNat + 1))) = .ok i) :
    fetchInstr s = .ok i :=
  fetchInstr_eq_ok.mpr ⟨_, fetchWord_eq_ok.mpr ⟨hpc, rfl⟩, hi⟩

/-- The two ways a fetch errs: outside memory, or on a word that is no instruction (R236). -/
theorem fetchInstr_eq_error {s : State} {e : Fault} :
    fetchInstr s = .error e ↔
      fetchWord s = .error e ∨ ∃ op u, fetchWord s = .ok op ∧ decode op = .error u ∧ e = .unknownOpcode u.op := by
  unfold fetchInstr
  cases hf : fetchWord s with
  | error e' => simp
  | ok op => cases hd : decode op <;> simp [hd, eq_comm]

theorem step_of_fetch_error {s : State} {e : Fault} (h : fetchWord s = .error e) : step s = .fault e :=
  step_eq_fault.mpr (.inl (fetchInstr_eq_error.mpr (.inl h)))

/-- Settles O8: a fetch that does not err is the two bytes at PC, high byte first. -/
theorem fetchIsBigEndian : Obligations.FetchIsBigEndian := fun _ hpc =>
  ⟨_, fetchWord_eq_ok.mpr ⟨hpc, rfl⟩, toNat_wordOfBytes _ _⟩

/-- Settles O7: the step is the fetched instruction's `exec`, and only a next state is ticked. -/
theorem stepRunsTheDecodedInstruction : Obligations.StepRunsTheDecodedInstruction := by
  intro s i hpc hi
  have hf := fetchInstr_of_decode hpc hi
  exact ⟨fun t ht => step_eq_next.mpr ⟨i, t, hf, ht, rfl⟩, fun e he => step_eq_fault.mpr (.inr ⟨i, hf, he⟩)⟩

/-- Settles O9: the first address outside memory is max(PC, 4096), and an illegal word is its own payload. -/
theorem fetchErrorsEndTheCycle : Obligations.FetchErrorsEndTheCycle := by
  intro s
  refine ⟨fun hpc => ?_, fun hpc => ?_, fun hpc hop => ?_⟩
  · exact step_of_fetch_error (fetchWord_eq_error.mpr ⟨by omega, by rw [Nat.max_eq_left hpc]⟩)
  · exact step_of_fetch_error (fetchWord_eq_error.mpr ⟨by omega, by rw [hpc]; rfl⟩)
  · have hf := fetchWord_eq_ok.mpr ⟨hpc, rfl⟩
    exact step_eq_fault.mpr (.inl (fetchInstr_eq_error.mpr (.inr ⟨_, _, hf, decode_of_illegalWord hop, rfl⟩)))

/-! ### The errors of the instructions (R237) -/

theorem exec_ret_eq_fault {s : State} {e : Fault} :
    exec .ret s = .fault e ↔ s.sp.val = 0 ∧ e = .stackUnderflow := by
  rw [← State.pop_eq_none]
  simp only [exec, execRet]
  cases s.pop <;> simp [raise, eq_comm]

theorem exec_call_eq_fault {nnn : BitVec 12} {s : State} {e : Fault} :
    exec (.call nnn) s = .fault e ↔ s.sp.val = 16 ∧ e = .stackOverflow := by
  rw [← State.push_eq_none (w := s.pc + 2)]
  simp only [exec, execCall]
  cases s.push (s.pc + 2) <;> simp [raise, eq_comm]

theorem exec_drw_eq_fault {x y : Reg} {n : BitVec 4} {s : State} {e : Fault} :
    exec (.drw x y n) s = .fault e ↔ s.spriteFault n = some e := by
  simp only [exec, execDrw]
  split <;> simp_all [raise]

theorem exec_ldB_eq_fault {x : Reg} {s : State} {e : Fault} :
    exec (.ldB x) s = .fault e ↔ rangeFault .write s.i.toNat 3 = some e := by
  simp only [exec, execLdB]
  split <;> simp_all [raise]

theorem exec_stRegs_eq_fault {x : Reg} {s : State} {e : Fault} :
    exec (.stRegs x) s = .fault e ↔ rangeFault .write s.i.toNat (x.val + 1) = some e := by
  simp only [exec, execStRegs]
  split <;> simp_all [raise]

theorem exec_ldRegs_eq_fault {x : Reg} {s : State} {e : Fault} :
    exec (.ldRegs x) s = .fault e ↔ rangeFault .read s.i.toNat (x.val + 1) = some e := by
  simp only [exec, execLdRegs]
  split <;> simp_all [raise]

/-- The arms not named here answer a next state outright. -/
theorem exec_eq_fault {i : Instr} {s : State} {e : Fault} : exec i s = .fault e ↔ Raises i s e := by
  cases i
  case ret => exact exec_ret_eq_fault
  case call => exact exec_call_eq_fault
  case drw => exact exec_drw_eq_fault.trans State.spriteFault_eq_some
  case ldB => exact exec_ldB_eq_fault.trans rangeFault_eq_some
  case stRegs => exact exec_stRegs_eq_fault.trans rangeFault_eq_some
  case ldRegs => exact exec_ldRegs_eq_fault.trans rangeFault_eq_some
  case ldVxK =>
    simp only [exec, execLdVxK]
    split <;> exact ⟨nofun, nofun⟩
  all_goals exact ⟨nofun, nofun⟩

/-- No arm of `exec` refuses. -/
theorem exec_ne_refused (i : Instr) (s : State) (r : Refusal) : exec i s ≠ .refused r := by
  cases i
  case ret | call | drw | ldB | stRegs | ldRegs | ldVxK =>
    simp only [exec, execRet, execCall, execDrw, execLdB, execStRegs, execLdRegs, execLdVxK]
    split <;> exact nofun
  all_goals exact nofun

theorem exec_next_or_fault (i : Instr) (s : State) : (∃ t, exec i s = .next t) ∨ ∃ e, exec i s = .fault e := by
  cases h : exec i s with
  | next t => exact .inl ⟨t, rfl⟩
  | fault e => exact .inr ⟨e, rfl⟩
  | refused r => exact absurd h (exec_ne_refused i s r)

theorem exec_next_of_not_raises {i : Instr} {s : State} (h : ∀ e, ¬ Raises i s e) : ∃ t, exec i s = .next t :=
  (exec_next_or_fault i s).resolve_right fun ⟨e, he⟩ => h e (exec_eq_fault.mp he)

theorem step_next_or_fault (s : State) : (∃ t, step s = .next t) ∨ ∃ e, step s = .fault e := by
  cases hf : fetchInstr s with
  | error e => exact .inr ⟨e, step_eq_fault.mpr (.inl hf)⟩
  | ok i =>
    rcases exec_next_or_fault i s with ⟨t, ht⟩ | ⟨e, he⟩
    · exact .inl ⟨_, step_eq_next.mpr ⟨i, t, hf, ht, rfl⟩⟩
    · exact .inr ⟨e, step_eq_fault.mpr (.inr ⟨i, hf, he⟩)⟩

/-- Settles O10: `exec` errs by the table and never refuses, so it answers a next state everywhere else. -/
theorem errorsAreExactlyTheTable : Obligations.ErrorsAreExactlyTheTable :=
  ⟨fun _ _ => ⟨fun _ => exec_eq_fault, exec_next_of_not_raises⟩, step_next_or_fault⟩

/-! ### Errors repeat (R106, R262) -/

/-- What an instruction raises depends on SP and I alone. -/
theorem raises_congr {i : Instr} {s t : State} {e : Fault} (hsp : t.sp = s.sp) (hi : t.i = s.i) :
    Raises i t e ↔ Raises i s e := by
  unfold Raises
  rw [hsp, hi]

/-- An error of the cycle depends on MEM, PC, SP and I alone. -/
theorem step_fault_congr {s t : State} {e : Fault} (hmem : t.mem = s.mem) (hpc : t.pc = s.pc) (hsp : t.sp = s.sp)
    (hi : t.i = s.i) (h : step s = .fault e) : step t = .fault e := by
  have hf := fetchInstr_congr hmem hpc
  rcases step_eq_fault.mp h with he | ⟨i, hok, he⟩
  · exact step_eq_fault.mpr (.inl (hf.trans he))
  · have hraises := (raises_congr hsp hi).mpr (exec_eq_fault.mp he)
    exact step_eq_fault.mpr (.inr ⟨i, hf.trans hok, exec_eq_fault.mpr hraises⟩)

/-- A sequence of host operations keeps what each of its operations keeps. -/
theorem runHost_keeps {P : State → Prop} {ops : List HostOp} {s : State}
    (hcall : ∀ op ∈ ops, ∀ t, P t → P (hostCall op t).1) (hs : P s) : P (runHost ops s) := by
  induction ops generalizing s with
  | nil => exact hs
  | cons op ops ih =>
    obtain ⟨hop, hops⟩ := List.forall_mem_cons.mp hcall
    exact ih hops (hop s hs)

/-- A host operation that neither reloads nor replaces the state leaves a pending error pending. -/
theorem step_hostCall_of_fault {op : HostOp} (hop : keepsProgram op = true) {s : State} {e : Fault}
    (h : step s = .fault e) : step (hostCall op s).1 = .fault e := by
  cases op
  case new | initializeCore | loadRom => cases hop
  case executeCycle => rwa [hostCall, hostExecuteCycle_of_fault h]
  all_goals exact step_fault_congr (s := s) rfl rfl rfl rfl h

/-- Settles O11: that the cycle ends in `e` is an invariant of the operations between. -/
theorem errorRepeatsUntilReloaded : Obligations.ErrorRepeatsUntilReloaded := fun _ e h =>
  ⟨hostExecuteCycle_of_fault h, fun _ hops =>
    hostExecuteCycle_of_fault
      (runHost_keeps (P := fun t => step t = .fault e) (fun op hop _ => step_hostCall_of_fault (hops op hop)) h)⟩

end Sys2Proof.Machine

/-!
What an instruction may write (10_state.md sections 3 to 7): the next PC by kind, and every other component by its
writers. Each is one case split over the instructions; the invariants of steps and of host calls follow from these two.
-/

namespace Sys2Proof.Machine

open Claims (NextPc)

/-- A skip advances by 4 or by 2 (R130). -/
theorem nextPc_skipIf_cases (s : State) (c : Bool) : NextPc 2 s (s.skipIf c) ∨ NextPc 4 s (s.skipIf c) := by
  cases c <;> simp [NextPc, BitVec.toNat_add]

/-- A byte keeps its value when it is widened (R7). -/
theorem toNat_byteToWord (b : Byte) : (byteToWord b).toNat = b.toNat :=
  BitVec.toNat_setWidth_of_le (by decide)

/-- The target of BNNN is the exact sum, which is below 65536 (R123). -/
theorem toNat_offsetTarget (s : State) (nnn : BitVec 12) :
    (s.offsetTarget nnn).toNat = nnn.toNat + (s.getV 0).toNat := by
  have := nnn.isLt
  have := (s.getV 0).isLt
  rw [State.offsetTarget, BitVec.toNat_add, Claims.toNat_zext16, toNat_byteToWord]
  omega

/-- Settles O12, by the instruction: what is no skip, transfer or wait ends in the default advance. -/
theorem nextPcKinds : Obligations.NextPcKinds := by
  intro i s t h
  cases i
  case seImm x nn | sneImm x nn =>
    cases h
    exact (nextPc_skipIf_cases s _).imp_right fun h4 => .inl ⟨h4, x, x, nn, by simp⟩
  case seReg x y | sneReg x y =>
    cases h
    exact (nextPc_skipIf_cases s _).imp_right fun h4 => .inl ⟨h4, x, y, 0, by simp⟩
  case skp x | sknp x =>
    cases h
    exact (nextPc_skipIf_cases s _).imp_right fun h4 => .inl ⟨h4, x, x, 0, by simp⟩
  case jp nnn =>
    cases h
    exact .inr (.inr (.inl ⟨nnn, .inl rfl, Claims.toNat_zext16 nnn⟩))
  case call nnn =>
    obtain ⟨-, rfl⟩ := exec_call_next h
    exact .inr (.inr (.inl ⟨nnn, .inr rfl, Claims.toNat_zext16 nnn⟩))
  case jpV0 nnn =>
    cases h
    exact .inr (.inr (.inr (.inl ⟨nnn, rfl, toNat_offsetTarget s nnn⟩)))
  case ret =>
    obtain ⟨k, hk, rfl⟩ := exec_ret_next h
    exact .inr (.inr (.inr (.inr (.inl ⟨rfl, k, hk, rfl⟩))))
  case ldVxK x =>
    obtain ⟨hnone, rfl⟩ | ⟨k, -, rfl⟩ := exec_ldVxK_next h
    · exact .inr (.inr (.inr (.inr (.inr ⟨x, rfl, rfl, State.firstPressed_eq_none.mp hnone⟩))))
    · exact .inl (Claims.nextPc_advance rfl)
  case drw => exact .inl (exec_drw_next h ▸ Claims.nextPc_advance rfl)
  case ldB => exact .inl ((exec_ldB_next h).2 ▸ Claims.nextPc_advance rfl)
  case stRegs => exact .inl ((exec_stRegs_next h).2 ▸ Claims.nextPc_advance rfl)
  case ldRegs x => exact .inl ((exec_ldRegs_next h).2 ▸ Claims.nextPc_advance (s.setVUpTo_pc x _))
  all_goals
    cases h
    exact .inl (Claims.nextPc_advance rfl)

/-- Settles O45, by the instruction: the state it answers, and what that keeps of each component. -/
theorem onlyTheNamedWriters : Obligations.OnlyTheNamedWriters := by
  intro i s t h
  cases i
  case call => obtain ⟨-, rfl⟩ := exec_call_next h; simp
  case ret => obtain ⟨k, hk, rfl⟩ := exec_ret_next h; simp
  case ldVxK x => obtain ⟨-, rfl⟩ | ⟨k, -, rfl⟩ := exec_ldVxK_next h <;> simp
  case drw => obtain rfl := exec_drw_next h; simp
  case ldB => obtain ⟨-, rfl⟩ := exec_ldB_next h; simp
  case stRegs => obtain ⟨-, rfl⟩ := exec_stRegs_next h; simp
  case ldRegs => obtain ⟨-, rfl⟩ := exec_ldRegs_next h; simp
  all_goals
    cases h
    simp

end Sys2Proof.Machine

/-!
The invariants (10_state.md R27, R32, R34): well-formed memories, DIVCNT below DIV, the bounds on PC and on the return
addresses, and the components no step changes. For each: it holds of `new()`, and every step and every host operation
keeps it.
-/

namespace Sys2Proof.Machine

open Claims (NextPc)

/-! ### What no step changes, and the divider -/

theorem step_keys_cfg_divcnt {s t : State} (h : step s = .next t) :
    t.keys = s.keys ∧ t.cfg = s.cfg ∧ t.divcnt = (s.divcnt + 1) % s.cfg.div := by
  obtain ⟨i, u, -, hu, rfl⟩ := step_eq_next.mp h
  obtain ⟨-, -, -, -, -, -, -, -, hkeys, hdivcnt, -, hcfg⟩ := onlyTheNamedWriters i s u hu
  exact ⟨hkeys, hcfg, by rw [timerTick_divcnt, State.nextDivcnt, hdivcnt, hcfg]⟩

/-- `execute_cycle()` moves the state by one step, or leaves it as it was (R106). -/
theorem hostExecuteCycle_cases (s : State) : (hostExecuteCycle s).1 = s ∨ step s = .next (hostExecuteCycle s).1 := by
  rcases step_next_or_fault s with ⟨t, ht⟩ | ⟨e, he⟩
  · exact .inr (by rw [hostExecuteCycle_of_next ht]; exact ht)
  · exact .inl (by rw [hostExecuteCycle_of_fault he])

/-- A property that every step keeps, `execute_cycle()` keeps. -/
theorem hostExecuteCycle_keeps {P : State → Prop} (hstep : ∀ s t, P s → step s = .next t → P t) {s : State}
    (hs : P s) : P (hostExecuteCycle s).1 := by
  rcases hostExecuteCycle_cases s with h | h
  · rwa [h]
  · exact hstep s _ hs h

/-- A property that every loaded ROM keeps, `load_rom` keeps: after a failure the state is the one before (R235). -/
theorem hostCall_loadRom_keeps {P : State → Prop} {bytes : List Byte} {s : State} (hs : P s)
    (hload : ∀ t, hostLoadRom bytes s = .ok t → P t) : P (hostCall (.loadRom bytes) s).1 := by
  cases h : hostLoadRom bytes s with
  | ok t => simpa [hostCall, h] using hload t h
  | error e => rwa [hostCall_loadRom_of_error h]

theorem hostCall_cfg (op : HostOp) (s : State) : (hostCall op s).1.cfg = s.cfg := by
  cases op
  case executeCycle =>
    exact hostExecuteCycle_keeps (P := fun t => t.cfg = s.cfg)
      (fun _ _ hs h => (step_keys_cfg_divcnt h).2.1.trans hs) rfl
  case loadRom bytes =>
    refine hostCall_loadRom_keeps (P := fun t => t.cfg = s.cfg) rfl fun t ht => ?_
    obtain ⟨-, rfl⟩ := hostLoadRom_eq_ok.mp ht
    rfl
  all_goals rfl

/-- Settles O51: for the host's sequences, that the configuration is `s.cfg` is kept by each operation. -/
theorem stepsKeepKeysAndConfiguration : Obligations.StepsKeepKeysAndConfiguration := by
  refine ⟨fun s t h => ?_, fun ops s => ?_⟩
  · obtain ⟨hkeys, hcfg, -⟩ := step_keys_cfg_divcnt h
    exact ⟨hkeys, hcfg⟩
  · exact runHost_keeps (P := fun t => t.cfg = s.cfg) (fun op _ t ht => (hostCall_cfg op t).trans ht) rfl

/-- Settles O43, by induction on the number of cycles: each adds 1 modulo the same DIV. -/
theorem dividerCountsCycles : Obligations.DividerCountsCycles := by
  intro s t k hs h
  induction k generalizing s with
  | zero =>
    cases h
    exact (Nat.mod_eq_of_lt hs).symm
  | succ k ih =>
    obtain ⟨u, hu, hrest⟩ := run_succ_eq_next.mp h
    obtain ⟨-, hcfg, hdivcnt⟩ := step_keys_cfg_divcnt hu
    have hlt : u.divcnt < u.cfg.div := by
      rw [hdivcnt, hcfg]
      exact Nat.mod_lt _ (Config.div_pos s.cfg)
    rw [ih u hlt hrest, hdivcnt, hcfg, Nat.mod_add_mod, Nat.add_assoc, Nat.add_comm 1 k]

/-! ### Well-formed states -/

theorem State.wf_iff {s : State} :
    s.wf = true ↔ Memory.wf s.mem = true ∧ Memory.vramWf s.vram = true ∧ s.divcnt < s.cfg.div := by
  simp [State.wf, and_assoc]

theorem State.wf_zero (cfg : Config) : (State.zero cfg).wf = true :=
  State.wf_iff.mpr ⟨rfl, rfl, Config.div_pos cfg⟩

@[simp] theorem length_bcdDigits (b : Byte) : (bcdDigits b).length = 3 := rfl

@[simp] theorem State.length_regsUpTo (s : State) (x : Reg) : (s.regsUpTo x).length = x.val + 1 := by
  have := x.isLt
  simp [State.regsUpTo]

theorem exec_keeps_memWf {i : Instr} {s t : State} (hs : Memory.wf s.mem = true) (h : exec i s = .next t) :
    Memory.wf t.mem = true := by
  obtain ⟨-, -, -, -, -, hmem, -⟩ := onlyTheNamedWriters i s t h
  by_cases heq : t.mem = s.mem
  · rwa [heq]
  · obtain ⟨x, hi⟩ := hmem heq
    obtain rfl | rfl : i = .ldB x ∨ i = .stRegs x := by simpa using hi
    · obtain ⟨hrange, rfl⟩ := exec_ldB_next h
      exact Memory.writeBlock_wfFrom _ _ _ hs (by rw [length_bcdDigits]; omega)
    · obtain ⟨hrange, rfl⟩ := exec_stRegs_next h
      exact Memory.writeBlock_wfFrom _ _ _ hs (by rw [State.length_regsUpTo]; omega)

theorem exec_keeps_vramWf {i : Instr} {s t : State} (hs : Memory.vramWf s.vram = true) (h : exec i s = .next t) :
    Memory.vramWf t.vram = true := by
  obtain ⟨-, -, -, hvram, -⟩ := onlyTheNamedWriters i s t h
  by_cases heq : t.vram = s.vram
  · rwa [heq]
  · obtain ⟨x, y, n, hi⟩ := hvram heq
    obtain rfl | rfl : i = .cls ∨ i = .drw x y n := by simpa using hi
    · cases h
      rfl
    · rw [exec_drw_next h]
      exact drawRows_vramWf _ _ hs

/-- Settles O48: the memories by their writers, the divider by the tick. -/
theorem stepKeepsWellFormed : Obligations.StepKeepsWellFormed := by
  intro s t hs h
  obtain ⟨hmem, hvram, -⟩ := State.wf_iff.mp hs
  obtain ⟨i, u, -, hu, rfl⟩ := step_eq_next.mp h
  have hmem' := exec_keeps_memWf hmem hu
  have hvram' := exec_keeps_vramWf hvram hu
  exact State.wf_iff.mpr ⟨hmem', hvram', u.nextDivcnt_lt⟩

theorem hostCall_keeps_wf (op : HostOp) {s : State} (hs : s.wf = true) : (hostCall op s).1.wf = true := by
  obtain ⟨hmem, hvram, hdivcnt⟩ := State.wf_iff.mp hs
  cases op
  case new => exact State.wf_zero s.cfg
  case initializeCore => exact State.wf_iff.mpr ⟨hostInitialize_wf hmem, hvram, hdivcnt⟩
  case loadRom bytes =>
    refine hostCall_loadRom_keeps (P := fun t => t.wf = true) hs fun t ht => ?_
    have hwf := hostLoadRom_wf hmem ht
    obtain ⟨-, rfl⟩ := hostLoadRom_eq_ok.mp ht
    exact State.wf_iff.mpr ⟨hwf, hvram, hdivcnt⟩
  case executeCycle => exact hostExecuteCycle_keeps (P := fun t => t.wf = true) stepKeepsWellFormed hs
  all_goals exact hs

/-- Settles O49: each operation keeps the invariant, so every sequence does. -/
theorem hostCallsKeepWellFormed : Obligations.HostCallsKeepWellFormed := fun _ _ hs =>
  runHost_keeps (P := fun t => t.wf = true) (fun op _ _ => hostCall_keeps_wf op) hs

/-! ### The bounds on PC and on the return addresses (R27) -/

/-- PC is a target, an address next to an instruction's, or a return address, each within its bound. -/
theorem exec_keeps_pc_le {i : Instr} {s t : State} (hs : s.pcBounded) (hpc : s.pc.toNat ≤ 4094)
    (h : exec i s = .next t) : t.pc.toNat ≤ 0x10FE := by
  obtain h2 | ⟨h4, -⟩ | ⟨nnn, -, hnnn⟩ | ⟨nnn, -, hoffset⟩ | ⟨-, k, hk, hret⟩ | ⟨-, -, rfl, -⟩ := nextPcKinds i s t h
  · unfold NextPc at h2; omega
  · unfold NextPc at h4; omega
  · have := nnn.isLt; omega
  · have := nnn.isLt
    have := (s.getV 0).isLt
    omega
  · have := hs.2 k (by omega)
    rw [hret]
    omega
  · exact hs.1

/-- A call at PC <= 4094 pushes a return address of at most 0x1000, and nothing else adds one. -/
theorem exec_keeps_returns_le {i : Instr} {s t : State} (hs : s.pcBounded) (hpc : s.pc.toNat ≤ 4094)
    (h : exec i s = .next t) (k : Fin 16) (hk : k.val < t.sp.val) : t.stack[k.val].toNat ≤ 0x1000 := by
  obtain ⟨-, -, -, -, -, -, hstack, -⟩ := onlyTheNamedWriters i s t h
  by_cases hsame : t.sp = s.sp ∧ t.stack = s.stack
  · obtain ⟨hsp, hslots⟩ := hsame
    rw [hsp] at hk
    simpa only [hslots] using hs.2 k hk
  · obtain ⟨nnn, hi⟩ := hstack (by tauto)
    obtain rfl | rfl : i = .call nnn ∨ i = .ret := by simpa using hi
    · obtain ⟨hlt, rfl⟩ := exec_call_next h
      have hk : k.val < s.sp.val + 1 := hk
      simp only [Vector.getElem_set]
      split
      · rw [BitVec.toNat_add]
        simp
        omega
      · exact hs.2 k (by omega)
    · obtain ⟨j, hj, rfl⟩ := exec_ret_next h
      have hk : k.val < j.val := hk
      exact hs.2 k (by omega)

theorem step_keeps_pcBounded {s t : State} (hs : s.pcBounded) (h : step s = .next t) :
    s.pc.toNat ≤ 4094 ∧ t.pcBounded := by
  obtain ⟨i, u, hf, hu, rfl⟩ := step_eq_next.mp h
  obtain ⟨op, hop, -⟩ := fetchInstr_eq_ok.mp hf
  have hpc : s.pc.toNat ≤ 4094 := by
    have := (fetchWord_eq_ok.mp hop).1
    omega
  have hreturns := exec_keeps_returns_le hs hpc hu
  have hpc' := exec_keeps_pc_le hs hpc hu
  exact ⟨hpc, hpc', hreturns⟩

theorem State.pcBounded_zero (cfg : Config) : (State.zero cfg).pcBounded :=
  ⟨Nat.zero_le _, fun _ hk => absurd hk (Nat.not_lt_zero _)⟩

theorem hostCall_keeps_pcBounded (op : HostOp) {s : State} (hs : s.pcBounded) : (hostCall op s).1.pcBounded := by
  cases op
  case new => exact State.pcBounded_zero s.cfg
  case initializeCore => exact ⟨(by decide : 0x200 ≤ 0x10FE), hs.2⟩
  case loadRom bytes =>
    refine hostCall_loadRom_keeps hs fun t ht => ?_
    obtain ⟨-, rfl⟩ := hostLoadRom_eq_ok.mp ht
    exact hs
  case executeCycle => exact hostExecuteCycle_keeps (fun _ _ hs h => (step_keeps_pcBounded hs h).2) hs
  all_goals exact hs

/-- Settles O50: for the host's sequences, each operation keeps the bounds. -/
theorem pcStaysBounded : Obligations.PcStaysBounded :=
  ⟨fun _ _ => step_keeps_pcBounded, fun _ _ => runHost_keeps fun op _ _ => hostCall_keeps_pcBounded op⟩

/-- Settles O47: the reset state is a zero state. -/
theorem resetMeetsTheInvariants : Obligations.ResetMeetsTheInvariants :=
  ⟨State.wf_zero Config.supplied, State.pcBounded_zero Config.supplied⟩

end Sys2Proof.Machine

/-!
The control-flow family (41_control_flow.md), BNNN, 2NNN, 00EE, 5XY0, 9XY0 and the key skips.
-/

namespace Sys2Proof.Claims

open Sys2Proof.Machine

/-! ### Jumps, calls and returns -/

/-- Settles O14: the next state is a write of PC, with the exact sum. -/
theorem jumpWithOffsetAddsV0 : Obligations.JumpWithOffsetAddsV0 :=
  ⟨encodes_jpV0, fun nnn s => ⟨s.setPc (s.offsetTarget nnn), rfl, toNat_offsetTarget s nnn, frame_setPc s _⟩⟩

/-- CALL with a free slot answers (R122). -/
theorem exec_call_of_lt {s : State} (hsp : s.sp.val < 16) (nnn : BitVec 12) :
    exec (.call nnn) s = .next
      { s with stack := s.stack.set s.sp.val (s.pc + 2), sp := ⟨s.sp.val + 1, by omega⟩, pc := zext16 nnn } := by
  have hpush := State.push_eq_some (w := s.pc + 2).mpr ⟨hsp, rfl⟩
  simp only [exec, execCall, hpush]
  rfl

/-- RET with an occupied slot answers (R120). -/
theorem exec_ret_of_pos {s : State} (hsp : 0 < s.sp.val) :
    exec .ret s = .next { s with sp := ⟨s.sp.val - 1, by omega⟩, pc := s.stack[s.sp.val - 1] } := by
  have hpop := State.pop_eq_some.mpr ⟨hsp, rfl, rfl⟩
  simp only [exec, execRet, hpop]
  rfl

/-- Settles O15: the pushed address lands in the slot at SP, and every other slot stays. -/
theorem callPushesReturnAddress : Obligations.CallPushesReturnAddress := by
  refine ⟨encodes_call, fun nnn s k hk => ?_, fun nnn s hfull => exec_call_eq_fault.mpr ⟨hfull, rfl⟩⟩
  have hlt : s.sp.val < 16 := hk ▸ k.isLt
  refine ⟨_, exec_call_of_lt hlt nnn, toNat_zext16 nnn, ?slot, by simp [hk], ?frame⟩
  case slot => simp [hk, BitVec.toNat_add]
  case frame =>
    have hother (j : Fin 16) (hj : j.val ≠ k.val) : (s.stack.set s.sp.val (s.pc + 2))[j.val] = s.stack[j.val] :=
      Vector.getElem_set_ne _ _ (by omega)
    simpa [Frame, State.getV] using hother

/-- Settles O16: the popped slot is the one below SP, and keeps its value. -/
theorem returnPopsIntoPc : Obligations.ReturnPopsIntoPc := by
  refine ⟨encodes_ret, fun s k hk => ?_, fun s hempty => exec_ret_eq_fault.mpr ⟨hempty, rfl⟩⟩
  refine ⟨_, exec_ret_of_pos (by omega), by simp [hk], by simp [hk], ?_⟩
  simp [Frame, State.getV]

/-- Settles O17: the slot that RET pops is the slot that CALL wrote. -/
theorem callThenReturnResumesAfterCall : Obligations.CallThenReturnResumesAfterCall := by
  intro nnn s t u hcall hsp hstack
  obtain ⟨hlt, rfl⟩ := exec_call_next hcall
  have hsp : u.sp.val = s.sp.val + 1 := by rw [hsp]
  refine ⟨_, exec_ret_of_pos (by omega), ?_, Fin.ext (by simp [hsp])⟩
  simp [hsp, hstack, BitVec.toNat_add]

/-! ### Skips -/

/-- Settles O19: SE and SNE of two registers are skips on their own comparison. -/
theorem compareRegisterSkips : Obligations.CompareRegisterSkips :=
  ⟨encodes_seReg, encodes_sneReg,
    fun x y s => ⟨_, rfl, nextPc_skipIf s (s.getV x = s.getV y), frame_skipIf s _⟩,
    fun x y s => ⟨_, rfl, nextPc_skipIf s (s.getV x ≠ s.getV y), frame_skipIf s _⟩⟩

/-- A register below 16 names the key of that number (R131). -/
theorem keyDown_of_toNat_eq {s : State} {b : Byte} {k : Fin 16} (hk : b.toNat = k.val) :
    s.keyDown b = s.keys[k.val] := by
  simp [State.keyDown, hk]

/-- A register of 16 or more names no key (R131, D8). -/
theorem keyDown_of_le {s : State} {b : Byte} (hb : 16 ≤ b.toNat) : s.keyDown b = false := by
  simp [State.keyDown, Nat.not_lt.mpr hb]

/-- SKP and SKNP are skips on the same key, with the two outcomes exchanged (R128, R129). -/
theorem exec_key_skips {x : Reg} {s : State} {c : Bool} (hc : s.keyDown (s.getV x) = c) :
    (∃ t, exec (.skp x) s = .next t ∧ NextPc (if c = true then 4 else 2) s t ∧ Frame {} s t) ∧
    (∃ t, exec (.sknp x) s = .next t ∧ NextPc (if c = true then 2 else 4) s t ∧ Frame {} s t) := by
  subst hc
  refine ⟨⟨_, rfl, ?_, frame_skipIf s _⟩, ⟨_, rfl, ?_, frame_skipIf s _⟩⟩
  all_goals cases hkey : s.keyDown (s.getV x) <;> simp [NextPc, BitVec.toNat_add]

/-- Settles O20, by whether V[x] names a key. -/
theorem keySkips : Obligations.KeySkips :=
  ⟨encodes_skp, encodes_sknp, fun _ _ _ hk => exec_key_skips (keyDown_of_toNat_eq hk),
    fun _ _ hb => exec_key_skips (keyDown_of_le hb)⟩

end Sys2Proof.Claims

/-!
The load and ALU family (42_alu.md), 8XY0 to 8XY3, 8XY5 to 8XY7, 8XYE and CXNN, and who writes VF.
-/

namespace Sys2Proof.Claims

open Sys2Proof.Machine

/-! ### One register, then the default advance -/

/-- Every instruction that answers `(s.setV x b).advance` meets these three (R108). -/
theorem setV_advance_spec (s : State) (x : Reg) (b : Byte) :
    (s.setV x b).advance.getV x = b ∧ NextPc 2 s (s.setV x b).advance ∧ Frame { regs := [x] } s (s.setV x b).advance :=
  ⟨s.getV_setV_same x b, nextPc_advance rfl, frame_setV_advance s x b⟩

/-- The same, with the byte as a number. -/
theorem setV_advance_spec_toNat (s : State) (x : Reg) {b : Byte} {n : Nat} (hb : b.toNat = n) :
    ((s.setV x b).advance.getV x).toNat = n ∧
    NextPc 2 s (s.setV x b).advance ∧ Frame { regs := [x] } s (s.setV x b).advance := by
  obtain ⟨hx, hrest⟩ := setV_advance_spec s x b
  exact ⟨by rw [hx, hb], hrest⟩

/-- Settles O22: a bitwise operation on bytes is the same operation on their numbers. -/
theorem copyAndLogic : Obligations.CopyAndLogic :=
  ⟨encodes_ldReg, encodes_orReg, encodes_andReg, encodes_xorReg,
    fun x _ s => ⟨_, rfl, setV_advance_spec s x _⟩,
    fun x _ s => ⟨_, rfl, setV_advance_spec_toNat s x (BitVec.toNat_or _ _)⟩,
    fun x _ s => ⟨_, rfl, setV_advance_spec_toNat s x (BitVec.toNat_and _ _)⟩,
    fun x _ s => ⟨_, rfl, setV_advance_spec_toNat s x (BitVec.toNat_xor _ _)⟩⟩

/-- Settles O26: the draw is masked, and counted after it is read. -/
theorem randomIsMasked : Obligations.RandomIsMasked := by
  refine ⟨encodes_rnd, fun x nn s => ?_⟩
  have hx : ((s.setV x (s.rand8 &&& nn)).countDraw).advance.getV x = s.rand8 &&& nn := s.getV_setV_same x _
  refine ⟨_, rfl, ?masked, rfl, ?zero, nextPc_advance rfl, ?frame⟩
  case masked => rw [hx, BitVec.toNat_and, State.rand8]
  case zero => rintro rfl; exact hx.trans BitVec.and_zero
  case frame =>
    have hother (r : Reg) (hr : r ≠ x) : (s.setV x (s.rand8 &&& nn)).getV r = s.getV r := s.getV_setV_other hr _
    simpa [Frame, State.getV] using hother

/-! ### A result and a flag -/

/-- Every instruction that answers `(s.setResultFlag x b f).advance` meets these four, with its own numbers for the two
bytes (R22, R107, R108). -/
theorem setResultFlag_advance_spec (s : State) (x : Reg) {b f : Byte} {n m : Nat} (hb : b.toNat = n)
    (hf : f.toNat = m) :
    (x ≠ VF → ((s.setResultFlag x b f).advance.getV x).toNat = n) ∧
    ((s.setResultFlag x b f).advance.getV VF).toNat = m ∧
    NextPc 2 s (s.setResultFlag x b f).advance ∧ Frame { regs := [x, VF] } s (s.setResultFlag x b f).advance := by
  refine ⟨fun hx => ?_, ?_, nextPc_advance rfl, frame_setResultFlag_advance s x b f⟩
  · rw [State.getV_advance, getV_setResultFlag_of_ne_VF s hx, hb]
  · rw [State.getV_advance, getV_VF_setResultFlag, hf]

theorem toNat_sub_byte (a b : Byte) : (a - b).toNat = (a.toNat + 256 - b.toNat) % 256 := by
  have := a.isLt
  have := b.isLt
  rw [BitVec.toNat_sub]
  omega

theorem toNat_greaterFlag (a b : Byte) : (greaterFlag a b).toNat = if a.toNat > b.toNat then 1 else 0 :=
  toNat_flagByte (b.toNat < a.toNat)

/-- Settles O24: SUB and SUBN are one subtraction and one strict comparison, with the operands exchanged. -/
theorem subtractsSetGreaterFlag : Obligations.SubtractsSetGreaterFlag :=
  ⟨encodes_sub, encodes_subn,
    fun x _ s => ⟨_, rfl, setResultFlag_advance_spec s x (toNat_sub_byte _ _) (toNat_greaterFlag _ _)⟩,
    fun x _ s => ⟨_, rfl, setResultFlag_advance_spec s x (toNat_sub_byte _ _) (toNat_greaterFlag _ _)⟩⟩

theorem toNat_flagByte_bool (c : Bool) : (flagByte c).toNat = c.toNat := by
  cases c <;> rfl

theorem toNat_shiftedOutRight (a : Byte) : (shiftedOutRight a).toNat = a.toNat % 2 := by
  rw [shiftedOutRight, toNat_flagByte_bool, BitVec.getLsbD, Nat.toNat_testBit]
  simp

theorem toNat_shiftedOutLeft (a : Byte) : (shiftedOutLeft a).toNat = a.toNat / 128 := by
  have := a.isLt
  rw [shiftedOutLeft, toNat_flagByte_bool, BitVec.getLsbD, Nat.toNat_testBit]
  omega

theorem toNat_shiftRight_one (a : Byte) : (a >>> 1).toNat = a.toNat / 2 := by
  rw [BitVec.toNat_ushiftRight, Nat.shiftRight_one]

theorem toNat_shiftLeft_one (a : Byte) : (a <<< 1).toNat = a.toNat * 2 % 256 := by
  rw [BitVec.toNat_shiftLeft, Nat.shiftLeft_eq]

/-- Settles O25: a shift by one is a division or a product by 2, and the flag is bit 0 or bit 7. -/
theorem shiftsSetShiftedOutBit : Obligations.ShiftsSetShiftedOutBit :=
  ⟨encodes_shr, encodes_shl,
    fun x s => ⟨_, rfl, setResultFlag_advance_spec s x (toNat_shiftRight_one _) (toNat_shiftedOutRight _)⟩,
    fun x s => ⟨_, rfl, setResultFlag_advance_spec s x (toNat_shiftLeft_one _) (toNat_shiftedOutLeft _)⟩⟩

/-! ### Who writes VF (R22) -/

theorem toNat_flagByte_le (c : Bool) : (flagByte c).toNat ≤ 1 :=
  (toNat_flagByte_bool c).trans_le c.toNat_le

/-- A flag writer ends with a flag byte in VF. -/
theorem exec_flag_writer {i : Instr} {s t : State} (hi : writesFlag i = true) (h : exec i s = .next t) :
    ∃ c, t.getV VF = flagByte c := by
  cases i
  case addReg | sub | shr | subn | shl =>
    cases h
    exact ⟨_, getV_VF_setResultFlag s _ _ _⟩
  case drw =>
    obtain rfl := exec_drw_next h
    exact ⟨_, State.getV_setV_same _ VF _⟩
  all_goals cases hi

/-- Any other instruction keeps every register that is not its destination. -/
theorem exec_keeps_getV {i : Instr} {s t : State} {r : Reg} (hi : writesFlag i = false) (hr : writesData i r = false)
    (h : exec i s = .next t) : t.getV r = s.getV r := by
  cases i
  case addReg | sub | shr | subn | shl | drw => cases hi
  case ret => obtain ⟨k, -, rfl⟩ := exec_ret_next h; rfl
  case call => obtain ⟨-, rfl⟩ := exec_call_next h; rfl
  case ldB => obtain ⟨-, rfl⟩ := exec_ldB_next h; rfl
  case stRegs => obtain ⟨-, rfl⟩ := exec_stRegs_next h; rfl
  case ldRegs x =>
    obtain ⟨-, rfl⟩ := exec_ldRegs_next h
    have hr : ¬ r ≤ x := of_decide_eq_false hr
    simp [State.getV_setVUpTo, hr]
  case ldVxK x =>
    obtain ⟨-, rfl⟩ | ⟨k, -, rfl⟩ := exec_ldVxK_next h
    · rfl
    · exact s.getV_setV_other (by simpa [writesData] using hr) _
  case ldImm x _ | addImm x _ | ldReg x _ | orReg x _ | andReg x _ | xorReg x _ | rnd x _ | ldVxDt x =>
    cases h
    exact s.getV_setV_other (by simpa [writesData] using hr) _
  all_goals
    cases h
    rfl

/-- Settles O27: a flag writer's VF is a flag byte, and VF is a register like any other elsewhere. -/
theorem onlyFlagWritersTouchVF : Obligations.OnlyFlagWritersTouchVF := by
  refine fun i s t h => ⟨fun hi => ?_, fun hi hr => exec_keeps_getV hi hr h⟩
  obtain ⟨c, hc⟩ := exec_flag_writer hi h
  rw [hc]
  exact toNat_flagByte_le c

end Sys2Proof.Claims

/-!
The index and memory family (43_index_memory.md), FX1E, FX29, FX33, FX55 and FX65: block writes seen by reads, by a load
and by the next fetch.
-/

namespace Sys2Proof.Claims

open Sys2Proof.Machine

/-! ### The two sums written to I -/

theorem toNat_indexPlus (s : State) (x : Reg) :
    (s.indexPlus x).toNat = (s.i.toNat + (s.getV x).toNat) % 65536 := by
  rw [State.indexPlus, BitVec.toNat_add, toNat_byteToWord]

/-- The font address is the exact number: at most 0x54B, it does not wrap (R172). -/
theorem toNat_fontAddress (b : Byte) : (fontAddress b).toNat = 0x50 + b.toNat * 5 := by
  have := b.isLt
  rw [fontAddress, BitVec.toNat_add, BitVec.toNat_mul, toNat_byteToWord]
  simp
  omega

/-- Settles O29: both are writes of I, with their own sums. -/
theorem addAndFontIndex : Obligations.AddAndFontIndex :=
  ⟨encodes_addI, encodes_ldF,
    fun x s => ⟨_, rfl, toNat_indexPlus s x, nextPc_advance rfl, frame_setI_advance s _⟩,
    fun x s => ⟨_, rfl, toNat_fontAddress (s.getV x), nextPc_advance rfl, frame_setI_advance s _⟩⟩

/-! ### Block writes -/

/-- A block write, with a new PC, changes the bytes of the block and PC alone (R61). -/
theorem frame_writeBlock (s : State) (base : Nat) (bs : List Byte) (pc : Word) :
    Frame { bytes := List.range' base bs.length } s
      ((s.setMem (Memory.writeBlock s.mem base bs)).setPc pc) := by
  have hother (a : Nat) (ha : a ∉ List.range' base bs.length) :
      Memory.read (Memory.writeBlock s.mem base bs) a = Memory.read s.mem a :=
    Memory.read_writeBlock_other bs s.mem base a (by rw [List.mem_range'_1] at ha; omega)
  simpa [Frame] using hother

/-- Inside memory FX33 writes its three digits. -/
theorem exec_ldB_of_lt {x : Reg} {s : State} (h : s.i.toNat + 2 < 4096) :
    exec (.ldB x) s = .next (s.setMem (Memory.writeBlock s.mem s.i.toNat (bcdDigits (s.getV x)))).advance := by
  have hrange : rangeFault .write s.i.toNat 3 = none := rangeFault_eq_none.mpr (by omega)
  simp only [exec, execLdB, hrange]

/-- Inside memory FX55 writes its registers. -/
theorem exec_stRegs_of_lt {x : Reg} {s : State} (h : s.i.toNat + x.val < 4096) :
    exec (.stRegs x) s = .next (s.setMem (Memory.writeBlock s.mem s.i.toNat (s.regsUpTo x))).advance := by
  have hrange : rangeFault .write s.i.toNat (x.val + 1) = none := rangeFault_eq_none.mpr (by omega)
  simp only [exec, execStRegs, hrange]

/-- Inside memory FX65 reads its registers. -/
theorem exec_ldRegs_of_lt {x : Reg} {s : State} (h : s.i.toNat + x.val < 4096) :
    exec (.ldRegs x) s = .next (s.setVUpTo x (fun k => Memory.read s.mem (s.i.toNat + k))).advance := by
  have hrange : rangeFault .read s.i.toNat (x.val + 1) = none := rangeFault_eq_none.mpr (by omega)
  simp only [exec, execLdRegs, hrange]

/-- The j-th stored byte is the decimal digit of weight 10^(2-j) (R173). -/
theorem toNat_bcdDigits (b : Byte) (j : Fin 3) :
    ((bcdDigits b)[j.val]).toNat = b.toNat / 10 ^ (2 - j.val) % 10 := by
  have := b.isLt
  fin_cases j <;> simp [bcdDigits] <;> omega

/-- What FX33 left in memory. -/
theorem toNat_read_of_exec_ldB {x : Reg} {s t : State} (hwf : Memory.wf s.mem = true) (h : exec (.ldB x) s = .next t)
    (j : Fin 3) :
    (Memory.read t.mem (s.i.toNat + j.val)).toNat = (s.getV x).toNat / 10 ^ (2 - j.val) % 10 := by
  obtain ⟨hrange, rfl⟩ := exec_ldB_next h
  rw [← toNat_bcdDigits]
  exact congrArg BitVec.toNat (Memory.read_writeBlock_same _ _ _ _ hwf (by rw [length_bcdDigits]; omega) _)

/-- What FX55 left in memory. -/
theorem read_of_exec_stRegs {x : Reg} {s t : State} (hwf : Memory.wf s.mem = true) (h : exec (.stRegs x) s = .next t)
    {r : Reg} (hr : r ≤ x) : Memory.read t.mem (s.i.toNat + r.val) = s.getV r := by
  obtain ⟨hrange, rfl⟩ := exec_stRegs_next h
  have hk : r.val < (s.regsUpTo x).length := by rw [State.length_regsUpTo]; exact Nat.lt_succ_of_le hr
  refine (Memory.read_writeBlock_same _ _ _ _ hwf (by rw [State.length_regsUpTo]; omega) hk).trans ?_
  simp [State.regsUpTo, State.getV]

/-- Settles O30: V[x] is below 256, so its hundreds are one digit. -/
theorem bcdStoresDigits : Obligations.BcdStoresDigits := by
  refine ⟨encodes_ldB, fun x s hwf hrange => ?_, fun x s hrange => ?_⟩
  · have hexec := exec_ldB_of_lt (x := x) hrange
    have hdigit := toNat_read_of_exec_ldB hwf hexec
    have hhundreds : (s.getV x).toNat / 100 % 10 = (s.getV x).toNat / 100 := by
      have := (s.getV x).isLt
      omega
    refine ⟨_, hexec, (hdigit 0).trans hhundreds, hdigit 1, (hdigit 2).trans ?_, nextPc_advance rfl,
      frame_writeBlock s _ _ _⟩
    simp
  · exact exec_ldB_eq_fault.mpr (rangeFault_eq_some.mpr ⟨by omega, rfl⟩)

/-- Settles O31: the block written is V0..Vx, of x + 1 bytes. -/
theorem blockStore : Obligations.BlockStore := by
  refine ⟨encodes_stRegs, fun x s hwf hrange => ?_, fun x s hrange => ?_⟩
  · have hexec := exec_stRegs_of_lt hrange
    have hframe := frame_writeBlock s s.i.toNat (s.regsUpTo x) (s.pc + 2)
    rw [State.length_regsUpTo] at hframe
    exact ⟨_, hexec, fun _ => read_of_exec_stRegs hwf hexec, nextPc_advance rfl, hframe⟩
  · exact exec_stRegs_eq_fault.mpr (rangeFault_eq_some.mpr ⟨by omega, rfl⟩)

/-- What FX65 left in the registers up to x. -/
theorem getV_of_exec_ldRegs {x : Reg} {s t : State} (h : exec (.ldRegs x) s = .next t) {r : Reg} (hr : r ≤ x) :
    t.getV r = Memory.read s.mem (s.i.toNat + r.val) := by
  obtain ⟨-, rfl⟩ := exec_ldRegs_next h
  rw [State.getV_advance, State.getV_setVUpTo, if_pos hr]

/-- New registers up to x and the default advance change those registers and PC alone. -/
theorem frame_setVUpTo_advance (s : State) (x : Reg) (f : Nat → Byte) :
    Frame { regs := (List.finRange 16).filter (fun r => decide (r ≤ x)) } s (s.setVUpTo x f).advance := by
  have hother (r : Reg) (hr : x < r) : (s.setVUpTo x f).getV r = s.getV r := by
    rw [State.getV_setVUpTo, if_neg (not_le.mpr hr)]
  simpa [Frame] using hother

/-- Settles O32: the registers up to x are read from the block, and the frame names exactly those. -/
theorem blockLoad : Obligations.BlockLoad := by
  refine ⟨encodes_ldRegs, fun x s hrange => ?_, fun x s hrange => ?_⟩
  · have hexec := exec_ldRegs_of_lt hrange
    exact ⟨_, hexec, fun _ => getV_of_exec_ldRegs hexec, nextPc_advance (s.setVUpTo_pc x _),
      frame_setVUpTo_advance s x _⟩
  · exact exec_ldRegs_eq_fault.mpr (rangeFault_eq_some.mpr ⟨by omega, rfl⟩)

/-- Settles O33: both sides are the byte at I + r. -/
theorem blockStoreThenLoad : Obligations.BlockStoreThenLoad := by
  intro x s t u w hwf hstore hmem hi hload r hr
  rw [getV_of_exec_ldRegs hload hr, hmem, hi, read_of_exec_stRegs hwf hstore hr]

/-- A byte in memory is what the fetch sees at its address, as a high byte, and one below, as a low byte (R55). -/
theorem fetchSees_of_read {u : State} {a n : Nat} (ha : a < 4096) (hread : (Memory.read u.mem a).toNat = n) :
    FetchSees u a n := by
  subst hread
  constructor
  · rintro rfl hlt
    refine ⟨_, fetchWord_eq_ok.mpr ⟨hlt, rfl⟩, ?_⟩
    have := (Memory.read u.mem (u.pc.toNat + 1)).isLt
    rw [toNat_wordOfBytes]
    omega
  · rintro rfl
    refine ⟨_, fetchWord_eq_ok.mpr ⟨ha, rfl⟩, ?_⟩
    have := (Memory.read u.mem (u.pc.toNat + 1)).isLt
    rw [toNat_wordOfBytes]
    omega

/-- Settles O34: fetch reads the same memory that the stores wrote. -/
theorem storedBytesAreFetched : Obligations.StoredBytesAreFetched := by
  constructor
  · intro x s t u k hwf h hmem hk
    have hrange := (exec_stRegs_next h).1
    have hk' : k.val ≤ x.val := hk
    exact fetchSees_of_read (by omega) (by rw [hmem, read_of_exec_stRegs hwf h hk])
  · intro x s t u j hwf h hmem
    have hrange := (exec_ldB_next h).1
    exact fetchSees_of_read (by omega) (by rw [hmem, toNat_read_of_exec_ldB hwf h j])

end Sys2Proof.Claims

/-!
The display family (44_display.md): the screen that 00E0 and DXYN leave, cell by cell, and the sprite drawn twice.
-/

namespace Sys2Proof.Claims

open Sys2Proof.Machine

/-- Settles O35: the empty list of cells reads as 0x00 everywhere. -/
theorem clearScreen : Obligations.ClearScreen := by
  refine ⟨encodes_cls, fun s => ⟨(s.setVram []).advance, rfl, fun _ _ => rfl, nextPc_advance rfl, ?_⟩⟩
  simp [Frame]

/-! ### One draw -/

/-- The cells under set bits of the sprite that DRW x, y, n draws: its origin wraps (R192). -/
abbrev drwCovers (s : State) (x y : Reg) (n : BitVec 4) (px py : Nat) : Prop :=
  spriteCovers s ((s.getV x).toNat % 64) ((s.getV y).toNat % 32) n.toNat px py

theorem rowsCover_spriteBytes {s : State} {ox oy px py : Nat} {n : BitVec 4} :
    rowsCover ox oy (s.spriteBytes n) px py = true ↔ spriteCovers s ox oy n.toNat px py := by
  have hlen : (s.spriteBytes n).length = n.toNat := Memory.length_readBlock _ _ _
  simp only [rowsCover, spriteCovers, hlen, Bool.and_eq_true, decide_eq_true_eq, and_assoc]
  refine and_congr_right fun _ => and_congr_right fun _ => and_congr_right fun hle => and_congr_right fun hlt => ?_
  have hrow : py - oy < (s.spriteBytes n).length := by omega
  have hbyte : (s.spriteBytes n)[py - oy] = Memory.read s.mem (s.i.toNat + (py - oy)) :=
    Memory.getElem_readBlock _ _ _ _ hrow
  rw [List.getD_eq_getElem _ _ hrow, hbyte]

/-- A draw flips the covered cells of the screen and keeps the others (R193, R194). -/
theorem cell_of_exec_drw {x y : Reg} {n : BitVec 4} {s t : State} (hwf : Memory.vramWf s.vram = true)
    (h : exec (.drw x y n) s = .next t) {px py : Nat} (hx : px < 64) (hy : py < 32) :
    (drwCovers s x y n px py → cell t px py = cell s px py ^^^ 0xFF) ∧
    (¬ drwCovers s x y n px py → cell t px py = cell s px py) := by
  obtain rfl := exec_drw_next h
  have hread := read_drawRows (ox := spriteColumn (s.getV x)) (s.spriteBytes n) (spriteRow (s.getV y))
    (c := { vram := s.vram, hit := false }) hwf hx hy
  have hcovers : rowsCover (spriteColumn (s.getV x)) (spriteRow (s.getV y)) (s.spriteBytes n) px py = true ↔
      drwCovers s x y n px py := rowsCover_spriteBytes
  exact ⟨fun hc => hread.trans (if_pos (hcovers.mpr hc)), fun hc => hread.trans (if_neg (mt hcovers.mp hc))⟩

theorem flagByte_eq_one_iff {c : Bool} : flagByte c = 1 ↔ c = true := by
  cases c <;> decide

/-- VF of a draw is a flag byte, 1 exactly if a covered cell of the screen was lit (R194). -/
theorem getV_VF_of_exec_drw {x y : Reg} {n : BitVec 4} {s t : State} (hwf : Memory.vramWf s.vram = true)
    (h : exec (.drw x y n) s = .next t) :
    t.getV VF = 1 ↔ ∃ px py, px < 64 ∧ py < 32 ∧ drwCovers s x y n px py ∧ cell s px py = 0xFF := by
  have hVF : t.getV VF = flagByte (s.drawn x y n).hit := exec_drw_next h ▸ State.getV_setV_same _ VF _
  have hhit := hit_drawRows (ox := spriteColumn (s.getV x)) (s.spriteBytes n) (spriteRow (s.getV y))
    (c := { vram := s.vram, hit := false }) hwf
  simp only [rowsCover_spriteBytes, Bool.false_eq_true, false_or] at hhit
  rw [hVF]
  exact flagByte_eq_one_iff.trans hhit

theorem exec_drw_of_fits {x y : Reg} {n : BitVec 4} {s : State}
    (h : n.toNat = 0 ∨ s.i.toNat + n.toNat - 1 < 4096) :
    exec (.drw x y n) s = .next
      (((s.setVram (s.drawn x y n).vram).setV VF (collisionFlag (s.drawn x y n).hit)).setDrawFlag true).advance := by
  simp only [exec, execDrw, State.spriteFault_eq_none.mpr h]

/-- Settles O36: the cells and the collision as above, VF a flag byte, and the range check as for every access. -/
theorem drawFlipsCoveredCells : Obligations.DrawFlipsCoveredCells := by
  refine ⟨encodes_drw, fun x y n s hwf hfits => ?_, fun x y n s hn hrange => ?_⟩
  · have hexec := exec_drw_of_fits (x := x) (y := y) hfits
    refine ⟨_, hexec, fun px py hx hy => cell_of_exec_drw hwf hexec hx hy, ?flag, getV_VF_of_exec_drw hwf hexec, rfl,
      exec_keeps_vramWf hwf hexec, nextPc_advance rfl, ?frame⟩
    case flag =>
      obtain ⟨c, hc⟩ := exec_flag_writer rfl hexec
      rw [hc]
      cases c
      · exact .inl rfl
      · exact .inr rfl
    case frame =>
      have hother (r : Reg) (hr : r ≠ VF) : (s.setV VF (collisionFlag (s.drawn x y n).hit)).getV r = s.getV r :=
        s.getV_setV_other hr _
      simpa [Frame, State.getV] using hother
  · exact exec_drw_eq_fault.mpr (State.spriteFault_eq_some.mpr ⟨hn, hrange, rfl⟩)

/-! ### Two draws -/

/-- Two screens in canonical form with the same cells are the same data (log 6). -/
theorem vram_eq_of_cell_eq {s t : State} (hs : Memory.vramWf s.vram = true) (ht : Memory.vramWf t.vram = true)
    (hcell : ∀ px py, px < 64 → py < 32 → cell t px py = cell s px py) : t.vram = s.vram := by
  have hs := (Memory.vramWf_iff.mp hs).1
  have ht := (Memory.vramWf_iff.mp ht).1
  refine Memory.eq_of_read_eq ht hs fun k => ?_
  by_cases hk : k < 2048
  · rw [← cellIndex_mod_div k]
    exact hcell (k % 64) (k / 64) (by omega) (by omega)
  · rw [Memory.read_beyond ht (by omega), Memory.read_beyond hs (by omega)]

/-- A draw that does not move its own position keeps the sprite it covers (R107). -/
theorem drwCovers_congr {x y : Reg} {n : BitVec 4} {s t u : State} (hx : x ≠ VF) (hy : y ≠ VF)
    (h : exec (.drw x y n) s = .next t) (hmem : u.mem = s.mem) (hi : u.i = s.i) (hv : u.v = t.v) (px py : Nat) :
    drwCovers u x y n px py ↔ drwCovers s x y n px py := by
  obtain rfl := exec_drw_next h
  have hget {r : Reg} (hr : r ≠ VF) : u.getV r = s.getV r := by
    rw [State.getV, hv]
    exact State.getV_setV_other _ hr _
  rw [drwCovers, drwCovers, hget hx, hget hy, spriteCovers, spriteCovers, hmem, hi]

/-- Settles O37: the same cells are flipped twice, and the second draw meets 0xFF exactly where the first met 0x00. -/
theorem drawTwiceRestores : Obligations.DrawTwiceRestores := by
  intro x y n s t u w hwf hx hy hfirst hvram hmem hi hv hsecond
  have hwfu : Memory.vramWf u.vram = true := hvram ▸ exec_keeps_vramWf hwf hfirst
  have hcovers := drwCovers_congr hx hy hfirst hmem hi hv
  have hcell (px py : Nat) : cell u px py = cell t px py := by rw [cell, cell, hvram]
  constructor
  · refine vram_eq_of_cell_eq hwf (exec_keeps_vramWf hwfu hsecond) fun px py hpx hpy => ?_
    obtain ⟨hflip, hkeep⟩ := cell_of_exec_drw hwf hfirst hpx hpy
    obtain ⟨hflip', hkeep'⟩ := cell_of_exec_drw hwfu hsecond hpx hpy
    by_cases hc : drwCovers s x y n px py
    · rw [hflip' ((hcovers px py).mpr hc), hcell, hflip hc, BitVec.xor_assoc, BitVec.xor_self, BitVec.xor_zero]
    · rw [hkeep' (fun hu => hc ((hcovers px py).mp hu)), hcell, hkeep hc]
  · rw [getV_VF_of_exec_drw hwfu hsecond]
    refine exists_congr fun px => exists_congr fun py =>
      and_congr_right fun hpx => and_congr_right fun hpy => ?_
    rw [hcovers]
    refine and_congr_right fun hc => ?_
    rw [hcell, (cell_of_exec_drw hwf hfirst hpx hpy).1 hc]
    exact BitVec.xor_left_inj (y := 0) 0xFF

end Sys2Proof.Claims

/-!
The timer and keypad family (45_timers_keys.md) and the tick (60_exceptions.md R244 to R249): one tick, k ticks in
closed form, and the jump to itself that does nothing else.
-/

namespace Sys2Proof.Claims

open Sys2Proof.Machine

/-! ### FX07, FX15, FX18 and FX0A -/

/-- Settles O38: one register, DT or ST is written, before the default advance. -/
theorem timerMoves : Obligations.TimerMoves := by
  refine ⟨encodes_ldVxDt, encodes_ldDtVx, encodes_ldStVx, fun x s => ?_, fun x s => ?_, fun x s => ?_⟩
  · exact ⟨_, rfl, setV_advance_spec s x s.dt⟩
  · refine ⟨(s.setDt (s.getV x)).advance, rfl, rfl, nextPc_advance rfl, ?_⟩
    simp [Frame]
  · refine ⟨(s.setSt (s.getV x)).advance, rfl, rfl, nextPc_advance rfl, ?_⟩
    simp [Frame]

theorem toNat_keyNumber (k : Fin 16) : (keyNumber k).toNat = k.val :=
  Nat.mod_eq_of_lt (by omega)

/-- FX0A with a scanned key pressed (R213). -/
theorem exec_ldVxK_of_some {x : Reg} {s : State} {k : Fin 16} (h : s.firstPressed = some k) :
    exec (.ldVxK x) s = .next (s.setV x (keyNumber k)).advance := by
  simp only [exec, execLdVxK, h]

/-- FX0A with no scanned key pressed changes nothing, PC included (R213). -/
theorem exec_ldVxK_of_none {x : Reg} {s : State} (h : s.firstPressed = none) : exec (.ldVxK x) s = .next s := by
  simp only [exec, execLdVxK, h]

/-- Settles O39, by what the scan of the keys finds. -/
theorem waitForKey : Obligations.WaitForKey :=
  ⟨encodes_ldVxK,
    fun x s k hlast hdown hlowest =>
      ⟨_, exec_ldVxK_of_some (State.firstPressed_eq_some_of hlast hdown hlowest),
        setV_advance_spec_toNat s x (toNat_keyNumber k)⟩,
    fun _ _ hnone => exec_ldVxK_of_none (State.firstPressed_eq_none.mpr hnone)⟩

end Sys2Proof.Claims

namespace Sys2Proof.Machine

open Claims

/-! ### One tick -/

theorem State.tickWraps_iff {s : State} : s.tickWraps = true ↔ (s.divcnt + 1) % s.cfg.div = 0 :=
  decide_eq_true_iff

/-- A decrement that ends at 0 and did not begin there began at 1. -/
theorem countDown_to_zero_iff {b : Byte} : b ≠ 0 ∧ countDown b = 0 ↔ b.toNat = 1 := by
  rw [Ne, ← BitVec.toNat_inj, ← BitVec.toNat_inj, toNat_countDown]
  simp
  omega

theorem soundEvents_timerTick (s : State) :
    (timerTick s).soundEvents = s.soundEvents + if s.tickWraps = true ∧ s.st.toNat = 1 then 1 else 0 := by
  simp only [timerTick_soundEvents, Bool.and_eq_true, decide_eq_true_eq, and_assoc, countDown_to_zero_iff]
  split <;> rfl

/-- Settles O41, by whether the tick wraps the divider. -/
theorem tickCountsDown : Obligations.TickCountsDown := by
  intro s
  have hwraps : s.tickWraps = true ↔ (timerTick s).divcnt = 0 := decide_eq_true_iff
  refine ⟨rfl, fun hne => ?_, fun heq => ?_, rfl, rfl, rfl, rfl, rfl, rfl, rfl, rfl, rfl, rfl, rfl⟩
  · have hno : s.tickWraps = false := Bool.eq_false_iff.mpr (mt hwraps.mp hne)
    obtain ⟨hdt, hst⟩ := timers_timerTick_of_no_wrap hno
    exact ⟨hdt, hst, by rw [soundEvents_timerTick]; simp [hno]⟩
  · have hyes := hwraps.mpr heq
    obtain ⟨hdt, hst⟩ := timers_timerTick_of_wrap hyes
    exact ⟨hdt, hst, by rw [soundEvents_timerTick]; simp [hyes]⟩

/-! ### k ticks -/

theorem iterate_timerTick_cfg (s : State) (k : Nat) : (timerTick^[k] s).cfg = s.cfg := by
  induction k with
  | zero => rfl
  | succ k ih => rw [Function.iterate_succ_apply', timerTick_cfg, ih]

theorem iterate_timerTick_divcnt {s : State} (hs : s.divcnt < s.cfg.div) (k : Nat) :
    (timerTick^[k] s).divcnt = (s.divcnt + k) % s.cfg.div := by
  induction k with
  | zero => exact (Nat.mod_eq_of_lt hs).symm
  | succ k ih =>
    rw [Function.iterate_succ_apply', timerTick_divcnt, State.nextDivcnt, ih, iterate_timerTick_cfg, Nat.mod_add_mod,
      Nat.add_assoc]

/-- The next tick wraps exactly when it brings the count of wraps up by one. -/
theorem tickWraps_iterate {s : State} (hs : s.divcnt < s.cfg.div) (k : Nat) :
    (timerTick^[k] s).tickWraps = true ↔ s.cfg.div ∣ s.divcnt + k + 1 := by
  rw [State.tickWraps_iff, iterate_timerTick_divcnt hs, iterate_timerTick_cfg, Nat.mod_add_mod, Nat.dvd_iff_mod_eq_zero]

/-- Settles O42, by induction on the number of ticks, by whether the next one wraps the divider. -/
theorem ticksInARow : Obligations.TicksInARow := by
  intro s k hs
  refine ⟨iterate_timerTick_divcnt hs k, ?_⟩
  induction k with
  | zero => simp [Nat.div_eq_of_lt hs]; omega
  | succ k ih =>
    obtain ⟨hdt, hst, hsound⟩ := ih
    rw [Function.iterate_succ_apply', soundEvents_timerTick, hsound, hst]
    by_cases hwrap : s.cfg.div ∣ s.divcnt + k + 1
    · have hcount : (s.divcnt + (k + 1)) / s.cfg.div = (s.divcnt + k) / s.cfg.div + 1 := Nat.succ_div_of_dvd hwrap
      have hyes := (tickWraps_iterate hs k).mpr hwrap
      obtain ⟨hdt', hst'⟩ := timers_timerTick_of_wrap hyes
      rw [hdt', hst', hdt, hst, hcount]
      simp only [hyes, true_and]
      generalize (s.divcnt + k) / s.cfg.div = wraps
      split_ifs <;> omega
    · have hcount : (s.divcnt + (k + 1)) / s.cfg.div = (s.divcnt + k) / s.cfg.div := Nat.succ_div_of_not_dvd hwrap
      have hno := Bool.eq_false_iff.mpr (mt (tickWraps_iterate hs k).mp hwrap)
      obtain ⟨hdt', hst'⟩ := timers_timerTick_of_no_wrap hno
      rw [hdt', hst', hcount]
      simp [hno, hdt, hst]

/-! ### A jump to itself -/

/-- One cycle at a jump to itself is one tick (R292). -/
theorem step_selfJump {s : State} (hpc : s.pc.toNat + 1 < 4096)
    (hword : (Memory.read s.mem s.pc.toNat).toNat * 256 + (Memory.read s.mem (s.pc.toNat + 1)).toNat =
      0x1000 + s.pc.toNat) : step s = .next (timerTick s) := by
  rw [← toNat_wordOfBytes] at hword
  set op := wordOfBytes (Memory.read s.mem s.pc.toNat) (Memory.read s.mem (s.pc.toNat + 1))
  have hdecode : decode op = .ok (.jp (opNNN op)) := decode_jp (by omega)
  have htarget : zext16 (opNNN op) = s.pc := by
    apply BitVec.eq_of_toNat_eq
    rw [toNat_zext16, toNat_opNNN]
    omega
  have hexec : exec (.jp (opNNN op)) s = .next s := by
    rw [exec, execJp, htarget]
    rfl
  exact step_eq_next.mpr ⟨_, s, fetchInstr_of_decode hpc hdecode, hexec, rfl⟩

/-- Settles O44, by induction on the number of cycles: a tick keeps PC and MEM, so the jump stays. -/
theorem selfJumpOnlyTicks : Obligations.SelfJumpOnlyTicks := by
  intro s hpc hword k
  induction k generalizing s with
  | zero => rfl
  | succ k ih =>
    rw [run_succ_of_next (step_selfJump hpc hword), Function.iterate_succ_apply]
    exact ih (timerTick s) hpc hword

end Sys2Proof.Machine

/-!
The host-boundary and reset families (60_exceptions.md, 70_reset_and_hazards.md): the configuration check, the boot
sequence and the accessors.
-/

namespace Sys2Proof.Machine

open Claims

/-! ### The configuration (R5, R245) -/

theorem HostParams.wf_iff {p : HostParams} :
    p.wf = true ↔ 60 ≤ p.clockHz ∧ (p.fx0aLastKey = 14 ∨ p.fx0aLastKey = 15) ∧ p.fontset.length = 80 := by
  simp [HostParams.wf, HostParams.clockOk, HostParams.lastKeyOk, HostParams.fontsetOk, and_assoc]

theorem hostConfigure_eq_none {p : HostParams} : hostConfigure p = none ↔ ¬ p.wf = true := by
  unfold hostConfigure
  split <;> simp_all

/-- The copied fontset is the list that was given, byte by byte. -/
theorem toList_ofFn_getD {fontset : List Byte} (h : fontset.length = 80) :
    (Vector.ofFn (fun k : Fin 80 => fontset.getD k.val 0)).toList = fontset := by
  apply List.ext_getElem
  · simp [h]
  · intro k hk hk'
    simp [List.getElem?_eq_getElem hk']

theorem hostConfigure_eq_some {p : HostParams} {c : Config} (h : hostConfigure p = some c) :
    c.clockHz = p.clockHz ∧ c.lastKey.toNat = p.fx0aLastKey ∧ c.fontset.toList = p.fontset := by
  unfold hostConfigure at h
  split at h
  · rename_i hwf
    obtain ⟨hclock, hlast, hfont⟩ := HostParams.wf_iff.mp hwf
    cases h
    refine ⟨Nat.sub_add_cancel hclock, ?_, toList_ofFn_getD hfont⟩
    rcases hlast with h14 | h15
    · rw [h14]; rfl
    · rw [h15]; rfl
  · cases h

/-- Settles O52: a configuration exists exactly where the three checks pass, and it copies what they passed. -/
theorem configurationIsChecked : Obligations.ConfigurationIsChecked := by
  refine fun p => ⟨?_, fun c hc => ?_⟩
  · rw [hostConfigure_eq_none, HostParams.wf_iff]
    omega
  · obtain ⟨hclock, hlast, hfont⟩ := hostConfigure_eq_some hc
    exact ⟨hclock, hlast, hfont, Config.div_pos c⟩

/-! ### The boot sequence (R270 to R278) -/

/-- The host's boot call places the font bytes (R271). -/
theorem read_hostInitialize_font {s : State} (hwf : Memory.wf s.mem = true) (k : Fin 80) :
    Memory.read (hostInitialize s).mem (0x50 + k.val) = s.cfg.fontset[k.val] :=
  (Memory.read_writeBlock_same _ s.mem 0x50 k.val hwf (by simp) (by simp)).trans (by simp)

/-- Writing the same block again changes nothing, in a canonical memory. -/
theorem Memory.writeBlock_idem {m : Memory} {base : Nat} {bs : List Byte} (hwf : Memory.wf m = true)
    (h : base + bs.length ≤ 4096) :
    Memory.writeBlock (Memory.writeBlock m base bs) base bs = Memory.writeBlock m base bs := by
  have hwf' : Memory.wf (Memory.writeBlock m base bs) = true := Memory.writeBlock_wfFrom bs m base hwf h
  refine Memory.eq_of_read_eq (Memory.writeBlock_wfFrom bs _ base hwf' h) hwf' fun a => ?_
  by_cases ha : a < base ∨ base + bs.length ≤ a
  · exact Memory.read_writeBlock_other bs _ base a ha
  · obtain ⟨k, rfl⟩ : ∃ k, a = base + k := ⟨a - base, by omega⟩
    rw [Memory.read_writeBlock_same bs _ base k hwf' h (by omega),
      Memory.read_writeBlock_same bs _ base k hwf h (by omega)]

/-- Block writes that do not overlap commute, in a canonical memory. -/
theorem Memory.writeBlock_comm {m : Memory} {base base' : Nat} {bs bs' : List Byte} (hwf : Memory.wf m = true)
    (h : base + bs.length ≤ base') (h' : base' + bs'.length ≤ 4096) :
    Memory.writeBlock (Memory.writeBlock m base' bs') base bs =
      Memory.writeBlock (Memory.writeBlock m base bs) base' bs' := by
  have hlow : base + bs.length ≤ 4096 := by omega
  have hwf1 : Memory.wf (Memory.writeBlock m base bs) = true := Memory.writeBlock_wfFrom bs m base hwf hlow
  have hwf2 : Memory.wf (Memory.writeBlock m base' bs') = true := Memory.writeBlock_wfFrom bs' m base' hwf h'
  refine Memory.eq_of_read_eq (Memory.writeBlock_wfFrom bs _ base hwf2 hlow)
    (Memory.writeBlock_wfFrom bs' _ base' hwf1 h') fun a => ?_
  by_cases hlo : a < base ∨ base + bs.length ≤ a
  · rw [Memory.read_writeBlock_other bs _ base a hlo]
    by_cases hhi : a < base' ∨ base' + bs'.length ≤ a
    · rw [Memory.read_writeBlock_other bs' _ base' a hhi, Memory.read_writeBlock_other bs' _ base' a hhi,
        Memory.read_writeBlock_other bs _ base a hlo]
    · obtain ⟨k, rfl⟩ : ∃ k, a = base' + k := ⟨a - base', by omega⟩
      rw [Memory.read_writeBlock_same bs' _ base' k hwf h' (by omega),
        Memory.read_writeBlock_same bs' _ base' k hwf1 h' (by omega)]
  · obtain ⟨k, rfl⟩ : ∃ k, a = base + k := ⟨a - base, by omega⟩
    rw [Memory.read_writeBlock_other bs' _ base' _ (by omega),
      Memory.read_writeBlock_same bs _ base k hwf2 hlow (by omega),
      Memory.read_writeBlock_same bs _ base k hwf hlow (by omega)]

/-- Settles O53: the font lies below 0x200, inside memory, and a second copy of it writes the same bytes. -/
theorem initializeSetsPcAndFont : Obligations.InitializeSetsPcAndFont := by
  intro s hwf
  have hframe := frame_writeBlock s 0x50 s.cfg.fontset.toList 0x200
  rw [Vector.length_toList] at hframe
  have hagain := Memory.writeBlock_idem (base := 0x50) (bs := s.cfg.fontset.toList) hwf (by simp)
  exact ⟨rfl, read_hostInitialize_font hwf, hframe, congrArg (fun m => (s.setMem m).setPc 0x200) hagain⟩

/-- Settles O55: a load that fits is one block write at 0x200. -/
theorem loadRomChangesOnlyTheRom : Obligations.LoadRomChangesOnlyTheRom := fun bytes s hlen =>
  ⟨_, hostLoadRom_eq_ok.mpr ⟨hlen, rfl⟩, rfl, frame_writeBlock s 0x200 bytes s.pc⟩

/-- Settles O56: the font ends at 0x9F, below the ROM, so the two block writes commute. -/
theorem initializeAndLoadCommute : Obligations.InitializeAndLoadCommute := by
  intro bytes s t u hwf ht hu
  obtain ⟨hlen, rfl⟩ := hostLoadRom_eq_ok.mp ht
  obtain ⟨-, rfl⟩ := hostLoadRom_eq_ok.mp hu
  have hcomm := Memory.writeBlock_comm (base := 0x50) (base' := 0x200) (bs := s.cfg.fontset.toList) (bs' := bytes) hwf
    (by simp) (by omega)
  exact congrArg (fun m => (s.setMem m).setPc 0x200) hcomm

/-- Two zero bytes at PC are the illegal word 0x0000 (R81, R273). -/
theorem step_of_zero_word {s : State} (hpc : s.pc.toNat + 1 < 4096) (hhi : Memory.read s.mem s.pc.toNat = 0)
    (hlo : Memory.read s.mem (s.pc.toNat + 1) = 0) : step s = .fault (.unknownOpcode 0x0000) := by
  have h := (fetchErrorsEndTheCycle s).2.2 hpc
  rw [hhi, hlo] at h
  exact h (by unfold IllegalWord; decide)

/-- Settles O57: PC is 0, where neither `new` nor a ROM, which begins at 0x200, puts a byte. -/
theorem cycleBeforeInitialize : Obligations.CycleBeforeInitialize := by
  intro cfg bytes s hs
  have hzero : s.pc.toNat = 0 ∧ ∀ a < 0x200, Memory.read s.mem a = 0 := by
    rcases hs with rfl | hload
    · exact ⟨rfl, fun _ _ => rfl⟩
    · obtain ⟨-, rfl⟩ := hostLoadRom_eq_ok.mp hload
      exact ⟨rfl, fun a ha => Memory.read_writeBlock_other bytes _ _ a (.inl ha)⟩
  obtain ⟨hpc, hmem⟩ := hzero
  exact hostExecuteCycle_of_fault (step_of_zero_word (by omega) (hmem _ (by omega)) (hmem _ (by omega)))

/-- Settles O58: PC is 0x200, where the ROM's first two bytes read back. -/
theorem bootFetchesTheRom : Obligations.BootFetchesTheRom := by
  intro cfg hi lo rest s hload
  have hwf : Memory.wf (hostInitialize (hostNew cfg)).mem = true := hostInitialize_wf rfl
  have hhi := read_mem_of_hostLoadRom hwf hload (k := 0) (by simp)
  have hlo := read_mem_of_hostLoadRom hwf hload (k := 1) (by simp)
  have hpc : s.pc.toNat = 0x200 := by
    obtain ⟨-, rfl⟩ := hostLoadRom_eq_ok.mp hload
    rfl
  obtain ⟨op, hop, hword⟩ := fetchIsBigEndian s (by omega)
  refine ⟨op, hop, ?_⟩
  rw [hword, hpc, hhi, hlo]
  rfl

/-! ### Accessors (R255 to R258) -/

theorem frame_refl (w : Touched) (s : State) : Frame w s s := by
  simp [Frame]

/-- Settles O59: the snapshot is in index order, the other operations write the one component they name. -/
theorem hostAccessors : Obligations.HostAccessors := by
  intro s
  refine ⟨fun k => ⟨rfl, rfl, frame_refl {} _⟩, Memory.length_readBlock _ _ _, fun k hk => ?snapshot, rfl, rfl, rfl,
    ?clear, rfl, rfl, rfl, frame_refl {} _⟩
  case snapshot =>
    refine (Memory.getElem_readBlock s.vram 0 2048 k hk).trans ?_
    rw [Nat.zero_add, cell, ← cellIndex, cellIndex_mod_div]
  case clear => simp [Frame, hostClearDrawFlag]

end Sys2Proof.Machine
